-- ==== Sys2Proof/Word.lean ====
section
/-! DEFINITION. The word types of ZMC, at the widths of 00_scope.md R9 and 30_encoding.md R80, R81. -/

namespace Sys2Proof

/-- One byte: a register-store location, a mode byte (R60, R81). -/
abbrev Byte := BitVec 8

/-- A 16-bit quantity: a position, a gain, a duty, a signed current setpoint (R9). -/
abbrev Half := BitVec 16

/-- A 32-bit quantity: a time in ms, a signed loop value (R9). -/
abbrev Word := BitVec 32

/-- A register-store address, unsigned 16 bits (R60). -/
abbrev Addr := BitVec 16

/-- A bus transaction word: W[24], ADDR[23:8], DATA[7:0] (R80). -/
abbrev BusWord := BitVec 25

end Sys2Proof
end

