-- ==== Sys2Proof/Machine/Arith.lean ====
section
/-! DEFINITION. The integer operators of 00_scope.md R11. Every expression of the spec is evaluated exactly over the
integers; `a mod m` for m > 0 is Lean's `a % m` on Int. The spec gives fdiv, cdiv, smod and mod for a positive second
operand only; what Lean gives for another is log 14. -/

namespace Sys2Proof.Machine

/-- fdiv(a, b), b > 0: floor(a / b) (R11). -/
def fdiv (a b : Int) : Int := a / b

/-- cdiv(a, b), b > 0: ceil(a / b) (R11). -/
def cdiv (a b : Int) : Int := -((-a) / b)

/-- smod(a, m): the minimal signed residue, in [-floor(m/2), ceil(m/2) - 1] (R11). -/
def smod (a m : Int) : Int :=
  let r := a % m
  if 2 * r ≥ m then r - m else r

/-- sat32(v) (R11). -/
def sat32 (v : Int) : Int := min (max v (-2 ^ 31)) (2 ^ 31 - 1)

/-- clamp(v, lo, hi) (R11). -/
def clamp (v lo hi : Int) : Int := min (max v lo) hi

end Sys2Proof.Machine
end

