-- ==== Sys2Proof/Syntax.lean ====
section
/-! DEFINITION. The instructions of ZMC: one constructor per row of spec/opcode_table.json. -/

namespace Sys2Proof

/-- IN, the tick input record (10_state.md R47). The environment chooses every field freely (R14). -/
structure TickIn where
  /-- `enc`: the encoder's position. -/
  enc : Half
  /-- `cur`: the measured current, mA. -/
  cur : Word
  /-- `hall_det`: the hall-peak detector's answer for HALL_SENSOR_INDEX. -/
  hallDet : Bool
  /-- `hall_adc`: the ADC's reading of HALL_ADC_CHANNEL. -/
  hallAdc : Half
  /-- `now`: the timebase, ms. -/
  now : Word
deriving DecidableEq, Repr, Inhabited

/-- The rows of the opcode table. BUS rows are bus transactions (R80), MODE rows are the mode bytes that a
tick dispatches on (R81, R90), TICK is the tick event with its input record (R82). -/
inductive Instr where
  /-- `W MODE`, R100. -/
  | wMode (data : Byte)
  /-- `W TARGET_A`, R101. -/
  | wTargetA (data : Byte)
  /-- `W TARGET_B`, R102. -/
  | wTargetB (data : Byte)
  /-- `W TIME_A`, R103. -/
  | wTimeA (data : Byte)
  /-- `W TIME_B`, R104. -/
  | wTimeB (data : Byte)
  /-- `W NEW_DATA`, R105. -/
  | wNewData (data : Byte)
  /-- `W CHECKSUM`, R106. -/
  | wChecksum (data : Byte)
  /-- `W COMMIT`, R110; DATA is ignored. -/
  | wCommit (data : Byte)
  /-- `W unmapped/read-only`, R107: every address but 0x0000 to 0x0007. -/
  | wUnmapped (addr : Addr) (data : Byte)
  /-- `R`, R118; DATA is ignored. -/
  | r (addr : Addr) (data : Byte)
  /-- `MODE Idle`, R134: mode byte 0. -/
  | modeIdle
  /-- `MODE Calibrate`, R135: mode byte 1. -/
  | modeCalibrate
  /-- `MODE WalkForward`, R136: mode byte 3. -/
  | modeWalkForward
  /-- `MODE PanicStop`, R139: mode byte 255. -/
  | modePanicStop
  /-- `MODE unrecognized`, R138: every other mode byte. -/
  | modeUnrecognized (mode : Byte)
  /-- `TICK`, R130. -/
  | tick (inp : TickIn)
deriving DecidableEq, Repr

end Sys2Proof
end

