-- ==== Sys2Proof/Config.lean ====
section
/-! DEFINITION. What an implementation of ZMC fixes (the parameters of 00_scope.md R8) and what the
environment chooses (the events). Both are free here: `opaque` constants with no body, of which nothing can
be proved. -/

namespace Sys2Proof

/-- A MotionCommand (10_state.md R22). The mode is a raw byte. -/
structure MotionCommand where
  mode : Byte
  targetA : Byte
  targetB : Byte
  timeA : Byte
  timeB : Byte
  newDataFlag : Bool
  checksum : Byte
deriving DecidableEq, Repr, Inhabited

/-- The command with every field 0 (R23, R24, R110). -/
def MotionCommand.zero : MotionCommand :=
  { mode := 0, targetA := 0, targetB := 0, timeA := 0, timeB := 0, newDataFlag := false, checksum := 0 }

/-- A gain set (10_state.md R26): three unsigned 16-bit values. -/
structure Gains where
  kp : Half
  ki : Half
  kd : Half
deriving DecidableEq, Repr, Inhabited

/-- VALIDATE (40_mailbox.md R111), a total Boolean function of a command, as plain data: there are finitely many
commands, so a predicate on them is the list of those it refuses, or the list of those it accepts
(log 2; Laws/Config.lean proves that every predicate is one of these). -/
inductive Validator where
  /-- Accepts every command but those listed. -/
  | allBut (refused : List MotionCommand)
  /-- Accepts exactly the commands listed. -/
  | only (accepted : List MotionCommand)
deriving DecidableEq, Repr, Inhabited

/-- VALIDATE(c) (R110, R111). -/
def Validator.accepts : Validator → MotionCommand → Bool
  | .allBut l, c => !(l.contains c)
  | .only l, c => l.contains c

/-- The default VALIDATE of R111: constant true. -/
def Validator.default : Validator := .allBut []

/-- The OPEN parameters of 00_scope.md R8, in its order. GATE_MS and TIME_MOD are FIXED: see `gateMs`, and every
time is 32 bits wide. HALL_SENSOR_INDEX, HALL_ADC_CHANNEL and TICK_PERIOD are read by no rule of ZMC: the first two
say what the environment puts into IN (R322), the third is the environment's own (R354). -/
structure Params where
  /-- PPR, encoder pulses per rotation. -/
  ppr : Nat
  /-- T_AD, acceleration and deceleration duration, ms. -/
  tAd : Nat
  /-- NORM_GAINS_P. -/
  normGainsP : Gains
  /-- NORM_GAINS_C. -/
  normGainsC : Gains
  /-- CAL_GAINS_P. -/
  calGainsP : Gains
  /-- CAL_GAINS_C. -/
  calGainsC : Gains
  /-- S_P, position-loop output shift. -/
  sP : Nat
  /-- S_C, current-loop output shift. -/
  sC : Nat
  /-- POS_OUT_LIMIT, mA. -/
  posOutLimit : Nat
  /-- CAL_POS_OUT_LIMIT, mA. -/
  calPosOutLimit : Nat
  /-- DUTY_MAX. -/
  dutyMax : Nat
  /-- N_D, derivative decimation. -/
  nD : Nat
  /-- CAL_I_THRESH, mA. -/
  calIThresh : Nat
  /-- DEBOUNCE_MS. -/
  debounceMs : Nat
  /-- SEARCH_OFFSET, pulses. -/
  searchOffset : Nat
  /-- HALL_SENSOR_INDEX. -/
  hallSensorIndex : Nat
  /-- HALL_ADC_CHANNEL. -/
  hallAdcChannel : Nat
  /-- SAMPLE_N. -/
  sampleN : Nat
  /-- VALIDATE. -/
  validate : Validator
  /-- CAL_STEP_TIMEOUT_MS; 0 = none. -/
  calStepTimeoutMs : Nat
  /-- TICK_PERIOD. -/
  tickPeriod : Nat
deriving DecidableEq, Repr, Inhabited

/-- GATE_MS, FIXED at 10 (R8). -/
def gateMs : Nat := 10

/-- The constraints of 00_scope.md R8. (The gains are 0..65535 by their width; VALIDATE and TICK_PERIOD have none.) -/
structure Params.Valid (p : Params) : Prop where
  ppr : 2 ≤ p.ppr ∧ p.ppr ≤ 32768
  tAd : p.tAd ≤ 32767
  sP : p.sP ≤ 16
  sC : p.sC ≤ 16
  posOutLimit : 1 ≤ p.posOutLimit ∧ p.posOutLimit ≤ 32767
  calPosOutLimit : 1 ≤ p.calPosOutLimit ∧ p.calPosOutLimit ≤ p.posOutLimit
  dutyMax : 1 ≤ p.dutyMax ∧ p.dutyMax ≤ 65535
  nD : 1 ≤ p.nD ∧ p.nD ≤ 255
  calIThresh : p.calIThresh ≤ 32767
  debounceMs : 400 ≤ p.debounceMs ∧ p.debounceMs ≤ 500
  searchOffset : 1 ≤ p.searchOffset ∧ p.searchOffset ≤ p.ppr - 1
  hallSensorIndex : p.hallSensorIndex ≤ 2
  hallAdcChannel : p.hallAdcChannel ≤ 255
  sampleN : p.sampleN ≤ 255
  calStepTimeoutMs : p.calStepTimeoutMs ≤ 2 ^ 32 - 1

/-- `x` moved into [lo, hi]. -/
def boundNat (lo hi x : Nat) : Nat := max lo (min x hi)

/-- Any parameter record moved into the constraints of R8. It is the identity on a valid record
(Laws/Config.lean), so its values are exactly the valid records. -/
def Params.bounded (p : Params) : Params :=
  let ppr := boundNat 2 32768 p.ppr
  let lim := boundNat 1 32767 p.posOutLimit
  { p with
    ppr := ppr
    tAd := boundNat 0 32767 p.tAd
    sP := boundNat 0 16 p.sP
    sC := boundNat 0 16 p.sC
    posOutLimit := lim
    calPosOutLimit := boundNat 1 lim p.calPosOutLimit
    dutyMax := boundNat 1 65535 p.dutyMax
    nD := boundNat 1 255 p.nD
    calIThresh := boundNat 0 32767 p.calIThresh
    debounceMs := boundNat 400 500 p.debounceMs
    searchOffset := boundNat 1 (ppr - 1) p.searchOffset
    hallSensorIndex := boundNat 0 2 p.hallSensorIndex
    hallAdcChannel := boundNat 0 255 p.hallAdcChannel
    sampleN := boundNat 0 255 p.sampleN
    calStepTimeoutMs := boundNat 0 (2 ^ 32 - 1) p.calStepTimeoutMs }

/-- One event of ZMC (60_exceptions.md R311): a bus transaction, or a tick with its input record and the bus
transactions that arrive while it executes (R7). -/
inductive Event where
  | bus (word : BusWord)
  | tick (inp : TickIn) (during : List BusWord)
deriving DecidableEq, Repr, Inhabited

/-- The values of the OPEN parameters, before the constraints of R8: free (log 1). -/
opaque Config.rawParams : Params

/-- The OPEN parameters of this implementation: any record that meets R8 (log 1). -/
def Config.params : Params := Config.rawParams.bounded

/-- The k-th event that nothing outside has placed: free, so that every interleaving of the two agents and every
input is allowed (R7, R14; log 3). -/
opaque Config.event : Nat → Event

end Sys2Proof
end

