-- ==== Sys2Proof/Machine/State.lean ====
section
/-! DEFINITION. The architectural state of ZMC (10_state.md), as plain data, and the state after a power-on reset
(70_reset_and_hazards.md R340). -/

namespace Sys2Proof.Machine

/-- The state of one control loop (10_state.md R28). The four values are signed 32-bit, `dcount` is in [0, N_D). -/
structure LoopState where
  err : Word
  errPrev : Word
  integ : Word
  deriv : Word
  dcount : Byte
deriving DecidableEq, Repr

/-- Every field 0 (R28, R239). -/
def LoopState.zero : LoopState := { err := 0, errPrev := 0, integ := 0, deriv := 0, dcount := 0 }

/-- TRK, the absolute-position record (10_state.md R29). -/
structure Tracker where
  abs : Half
  prevRaw : Half
deriving DecidableEq, Repr

/-- PROF, the motion profile (10_state.md R30). -/
structure Profile where
  active : Bool
  startPos : Half
  startTime : Word
  dist : Half
  dur : Half
  tad : Half
deriving DecidableEq, Repr

/-- CAL, the calibration sequencer's state (10_state.md R31). `samples` has SAMPLE_N entries. -/
structure Calibration where
  step : Byte
  flag : Bool
  gateWin : Word
  dbActive : Bool
  dbStart : Word
  stepStart : Word
  ref : Half
  samples : List Half
  scount : Byte
deriving DecidableEq, Repr

/-- DRIVE (10_state.md R32). The value 3 of the 2-bit register is never written, so it has no name here. -/
inductive Drive where
  | off
  | fwd
  | bwd
deriving DecidableEq, Repr

/-- The direction of a drive action (10_state.md R48). -/
inductive Dir where
  | fwd
  | bwd
deriving DecidableEq, Repr

/-- The H-bridge's modes (60_exceptions.md R322). ZMC only ever uses sign-magnitude (R236). -/
inductive BridgeMode where
  | lockedAntiPhase
  | signMagnitude
deriving DecidableEq, Repr

/-- The actuation of one tick (10_state.md R48): exactly one per tick. -/
inductive Act where
  | drive (dir : Dir) (duty : Half) (mode : BridgeMode)
  | disable
deriving DecidableEq, Repr

/-- OUT, the tick output record (10_state.md R48). -/
structure TickOut where
  act : Act
  encReset : Bool
  hallReset : Bool
deriving DecidableEq, Repr

/-- The default outputs with which every tick begins (41_dispatcher.md R130). -/
def TickOut.default : TickOut := { act := .disable, encReset := false, hallReset := false }

/-- SNAP, the telemetry image (10_state.md R36). -/
structure Snap where
  cmd : MotionCommand
  lastFault : Byte
  faultCount : Byte
  calStep : Byte
  calFlag : Bool
  profActive : Bool
  drive : Drive
  abs : Half
  lastKnown : Half
  posSp : Half
  curSp : Half
  duty : Half
  lastCur : Half
  lastEnc : Half
  gainsP : Gains
  gainsC : Gains
deriving DecidableEq, Repr

/-- The state of ZMC. The first group is the spec's (10_state.md); then the interface records of R47, R48 and R118;
then the model's own fields. -/
structure State where
  /-- PEND, the pending command (R23). -/
  pend : MotionCommand
  /-- CMD, the committed command (R24). -/
  cmd : MotionCommand
  /-- CMD_FRESH (R25). -/
  cmdFresh : Bool
  /-- GAINS_P, the active position-loop gains (R26). -/
  gainsP : Gains
  /-- GAINS_C, the active current-loop gains (R26). -/
  gainsC : Gains
  /-- SAVED_P (R27). -/
  savedP : Gains
  /-- SAVED_C (R27). -/
  savedC : Gains
  /-- PLOOP, the position loop (R28). -/
  ploop : LoopState
  /-- CLOOP, the current loop (R28). -/
  cloop : LoopState
  /-- TRK, the absolute position tracker (R29). -/
  trk : Tracker
  /-- PROF, the motion profile (R30). -/
  prof : Profile
  /-- CAL, the calibration sequencer (R31). -/
  cal : Calibration
  /-- POS_SP, the position setpoint (R32). -/
  posSp : Half
  /-- CUR_SP, the current setpoint, signed, mA (R32). -/
  curSp : Half
  /-- DUTY (R32). -/
  duty : Half
  /-- DRIVE (R32). -/
  drive : Drive
  /-- LAST_KNOWN (R33). -/
  lastKnown : Half
  /-- LAST_FAULT (R34). -/
  lastFault : Byte
  /-- FAULT_COUNT (R34). -/
  faultCount : Byte
  /-- LAST_ENC (R35). -/
  lastEnc : Half
  /-- LAST_CUR (R35). -/
  lastCur : Half
  /-- SNAP, the telemetry image (R36). -/
  snap : Snap
  /-- The bus transactions held during a tick, in the order of their issue (R7, R38, R68, R311; log 5). -/
  held : List BusWord
  /-- IN of the current or latest tick (R47; log 7). -/
  tickIn : TickIn
  /-- OUT of the current or latest tick (R48; log 6). -/
  out : TickOut
  /-- The byte the latest read transaction returned (R118; log 8). -/
  resp : Option Byte
  /-- The model's own: `fresh` of phase 2 of the current or latest tick (R130; log 7). -/
  tickFresh : Bool
  /-- The model's own: the OPEN parameters of R8. No step changes them (log 1). -/
  params : Params
  /-- The model's own: the events already placed for the coming steps (log 4). -/
  events : List Event
  /-- The model's own: how many events have been drawn from `Config.event` (log 3). -/
  draws : Nat
deriving DecidableEq, Repr

/-- The machine never stops with a fault: a fault of ZMC is recorded in LAST_FAULT and FAULT_COUNT and the machine
goes on (60_exceptions.md R300, R306, R307). So this closed inductive has no constructor. -/
inductive Fault where
deriving DecidableEq, Repr

/-- Why the model gives an instruction no meaning. -/
inductive Refusal where
  /-- Raised by an arm of `exec` for an instruction that has no meaning yet, named by its mnemonic; no arm raises it
  now. Safe: the model stops where the machine goes on. -/
  | notModelled (mnemonic : String)
deriving DecidableEq, Repr

/-- The state after a power-on reset of an implementation with parameters `p` (R340). -/
def State.resetWith (p : Params) : State :=
  { pend := .zero
    cmd := .zero
    cmdFresh := false
    gainsP := p.normGainsP
    gainsC := p.normGainsC
    savedP := p.normGainsP
    savedC := p.normGainsC
    ploop := .zero
    cloop := .zero
    trk := { abs := 0, prevRaw := 0 }
    prof := { active := false, startPos := 0, startTime := 0, dist := 0, dur := 0, tad := 0 }
    cal :=
      { step := 0, flag := false, gateWin := 0, dbActive := false, dbStart := 0, stepStart := 0, ref := 0
        samples := List.replicate p.sampleN 0, scount := 0 }
    posSp := 0
    curSp := 0
    duty := 0
    drive := .off
    lastKnown := 0
    lastFault := 0
    faultCount := 0
    lastEnc := 0
    lastCur := 0
    snap :=
      { cmd := .zero, lastFault := 0, faultCount := 0, calStep := 0, calFlag := false, profActive := false
        drive := .off, abs := 0, lastKnown := 0, posSp := 0, curSp := 0, duty := 0, lastCur := 0, lastEnc := 0
        gainsP := p.normGainsP, gainsC := p.normGainsC }
    held := []
    tickIn := { enc := 0, cur := 0, hallDet := false, hallAdc := 0, now := 0 }
    out := .default
    resp := none
    tickFresh := false
    params := p
    events := []
    draws := 0 }

/-- The machine right after a power-on reset (R340), at the parameters of the implementation. -/
def State.reset : State := State.resetWith Config.params

end Sys2Proof.Machine
end

