-- ==== Sys2Proof/Machine/Flags.lean ====
section
/-! DEFINITION. The 1-bit flags of ZMC (10_state.md R37): how each is computed, set and cleared. ZMC has no arithmetic
condition codes. CAL.flag, CAL.db_active and PROF.active are set and cleared by the records their rules write
(Calibration.lean, Profile.lean). -/

namespace Sys2Proof.Machine

/-- PEND.new_data_flag from the byte written: every nonzero byte stores 1 (40_mailbox.md R105). -/
def flagOfByte (data : Byte) : Bool := data != 0

/-- A flag as the byte a read returns: 0x00 or 0x01 (30_encoding.md R84). -/
def byteOfFlag (b : Bool) : Byte := if b then 1 else 0

/-- CMD_FRESH <- 1, by a successful commit (R25, R110). -/
def setFresh (s : State) : State := { s with cmdFresh := true }

/-- CMD_FRESH <- 0, by every tick (R25, R130 phase 2). -/
def clearFresh (s : State) : State := { s with cmdFresh := false }

end Sys2Proof.Machine
end

