-- ==== Sys2Proof/Machine/Operands.lean ====
section
/-! DEFINITION. The operand forms of ZMC: the 16-bit command operands (30_encoding.md R83), byte halves (20_memory.md
R62), reduced positions, elapsed times, sampled inputs, and the register map's readable bytes (30_encoding.md R84). -/

namespace Sys2Proof.Machine

/-- target16 = target_a || target_b (R83). -/
def target16 (c : MotionCommand) : Half := c.targetA ++ c.targetB

/-- time16 = time_a || time_b (R83). -/
def time16 (c : MotionCommand) : Half := c.timeA ++ c.timeB

/-- Bits [15:8], at the lower address (R62). -/
def hiByte (v : Half) : Byte := v.extractLsb' 8 8

/-- Bits [7:0], at the higher address (R62). -/
def loByte (v : Half) : Byte := v.extractLsb' 0 8

/-- `x mod PPR` as a 16-bit position (R9, R11). PPR <= 32768, so no bit is lost. -/
def position (p : Params) (x : Int) : Half := BitVec.ofInt 16 (x % (p.ppr : Int))

/-- The elapsed time (now - ref) mod 2^32, ms (R204, R320). -/
def elapsed (now ref : Word) : Nat := (now - ref).toNat

/-- The index of the 10 ms window of `now`: fdiv(now, GATE_MS) (R162). -/
def gateWindow (now : Word) : Word := BitVec.ofNat 32 (now.toNat / gateMs)

/-- LAST_ENC: IN.enc mod PPR (R130 phase 1). -/
def sampledEnc (p : Params) (inp : TickIn) : Half := BitVec.ofNat 16 (inp.enc.toNat % p.ppr)

/-- LAST_CUR: min(IN.cur, 32767) (R130 phase 1). -/
def sampledCur (inp : TickIn) : Half := BitVec.ofNat 16 (min inp.cur.toNat 32767)

/-- DRIVE as the byte a read returns: 0 OFF, 1 FWD, 2 BWD (R32, R84). -/
def driveByte : Drive → Byte
  | .off => 0
  | .fwd => 1
  | .bwd => 2

/-- The byte that a read of `addr` returns: the R value of the row of R84, computed from SNAP; an address in no row
reads 0x00 (R86, R118). A 16-bit row has its high byte at the lower address (R62). -/
def readByte (n : Snap) (addr : Addr) : Byte :=
  match addr.toNat with
  | 0x0000 => n.cmd.mode
  | 0x0001 => n.cmd.targetA
  | 0x0002 => n.cmd.targetB
  | 0x0003 => n.cmd.timeA
  | 0x0004 => n.cmd.timeB
  | 0x0005 => byteOfFlag n.cmd.newDataFlag
  | 0x0006 => n.cmd.checksum
  | 0x0007 => 0x00
  | 0x0010 => n.lastFault
  | 0x0011 => n.faultCount
  | 0x0012 => n.calStep
  | 0x0013 => byteOfFlag n.calFlag
  | 0x0014 => byteOfFlag n.profActive
  | 0x0015 => driveByte n.drive
  | 0x0020 => hiByte n.abs
  | 0x0021 => loByte n.abs
  | 0x0022 => hiByte n.lastKnown
  | 0x0023 => loByte n.lastKnown
  | 0x0024 => hiByte n.posSp
  | 0x0025 => loByte n.posSp
  | 0x0026 => hiByte n.curSp
  | 0x0027 => loByte n.curSp
  | 0x0028 => hiByte n.duty
  | 0x0029 => loByte n.duty
  | 0x002A => hiByte n.lastCur
  | 0x002B => loByte n.lastCur
  | 0x002C => hiByte n.lastEnc
  | 0x002D => loByte n.lastEnc
  | 0x0030 => hiByte n.gainsP.kp
  | 0x0031 => loByte n.gainsP.kp
  | 0x0032 => hiByte n.gainsP.ki
  | 0x0033 => loByte n.gainsP.ki
  | 0x0034 => hiByte n.gainsP.kd
  | 0x0035 => loByte n.gainsP.kd
  | 0x0036 => hiByte n.gainsC.kp
  | 0x0037 => loByte n.gainsC.kp
  | 0x0038 => hiByte n.gainsC.ki
  | 0x0039 => loByte n.gainsC.ki
  | 0x003A => hiByte n.gainsC.kd
  | 0x003B => loByte n.gainsC.kd
  | _ => 0x00

end Sys2Proof.Machine
end

