-- ==== Sys2Proof/Machine/Ops.lean ====
section
/-! DEFINITION. The operations that the meanings share: recording a fault, SAFE_OFF, the loop zeroing, the only
tick-engine write of CMD, the output record, and the publish. -/

namespace Sys2Proof.Machine

/-- The faults of ZMC (60_exceptions.md R301). -/
inductive FaultName where
  | invalidCommand
  | unrecognizedMode
  | degenerateProfile
  | sensorTimeout
deriving DecidableEq, Repr

/-- The code of a fault (R301). -/
def faultCode : FaultName → Byte
  | .invalidCommand => 1
  | .unrecognizedMode => 2
  | .degenerateProfile => 3
  | .sensorTimeout => 4

/-- FAULT_COUNT <- min(FAULT_COUNT + 1, 255) (R300). -/
def bumpCount (c : Byte) : Byte := BitVec.ofNat 8 (min (c.toNat + 1) 255)

/-- `raise Fault(code)` (R300): the only fault-recording action. It saves no return point and transfers no control
(R307); the rule that raises the fault performs the safe-state actions itself. ZMC has no return from a fault (R308):
recovery is by a new command. -/
def raiseFault (f : FaultName) (s : State) : State :=
  { s with lastFault := faultCode f, faultCount := bumpCount s.faultCount }

/-- ZERO_LOOPS (44_controllers.md R239). The gains are unchanged. -/
def zeroLoops (s : State) : State := { s with ploop := .zero, cloop := .zero }

/-- `OUT.act <- a` (10_state.md R48): the last one in a tick wins. -/
def setAct (a : Act) (s : State) : State := { s with out := { s.out with act := a } }

/-- `OUT.enc_reset <- 1` (R48): the Encoder's reset_position(). -/
def emitEncReset (s : State) : State := { s with out := { s.out with encReset := true } }

/-- `OUT.hall_reset <- 1` (R48): the Hall-peak detector's reset(). -/
def emitHallReset (s : State) : State := { s with out := { s.out with hallReset := true } }

/-- SAFE_OFF (41_dispatcher.md R133). POS_SP, TRK, PROF, CAL and CMD are unchanged. -/
def safeOff (s : State) : State :=
  zeroLoops { setAct .disable s with drive := .off, duty := 0, curSp := 0 }

/-- REVERT_MODE(v) (R137): the only tick-engine write of CMD; its other fields and CMD_FRESH are unchanged. -/
def revertMode (v : Byte) (s : State) : State := { s with cmd := { s.cmd with mode := v } }

/-- The image of the published fields (10_state.md R36; 41_dispatcher.md R140). -/
def imageOf (s : State) : Snap :=
  { cmd := s.cmd
    lastFault := s.lastFault
    faultCount := s.faultCount
    calStep := s.cal.step
    calFlag := s.cal.flag
    profActive := s.prof.active
    drive := s.drive
    abs := s.trk.abs
    lastKnown := s.lastKnown
    posSp := s.posSp
    curSp := s.curSp
    duty := s.duty
    lastCur := s.lastCur
    lastEnc := s.lastEnc
    gainsP := s.gainsP
    gainsC := s.gainsC }

/-- PUBLISH (R140). -/
def publish (s : State) : State := { s with snap := imageOf s }

end Sys2Proof.Machine
end

