-- ==== Sys2Proof/Machine/Mailbox.lean ====
section
/-! DEFINITION. The command mailbox and the bus transactions (40_mailbox.md): the meanings of the BUS rows. -/

namespace Sys2Proof.Machine

/-- The meaning of `W MODE` (R100). -/
def execWMode (data : Byte) (s : State) : Host.Outcome State Fault Refusal :=
  .next { s with pend := { s.pend with mode := data } }

/-- The meaning of `W TARGET_A` (R101). -/
def execWTargetA (data : Byte) (s : State) : Host.Outcome State Fault Refusal :=
  .next { s with pend := { s.pend with targetA := data } }

/-- The meaning of `W TARGET_B` (R102). -/
def execWTargetB (data : Byte) (s : State) : Host.Outcome State Fault Refusal :=
  .next { s with pend := { s.pend with targetB := data } }

/-- The meaning of `W TIME_A` (R103). -/
def execWTimeA (data : Byte) (s : State) : Host.Outcome State Fault Refusal :=
  .next { s with pend := { s.pend with timeA := data } }

/-- The meaning of `W TIME_B` (R104). -/
def execWTimeB (data : Byte) (s : State) : Host.Outcome State Fault Refusal :=
  .next { s with pend := { s.pend with timeB := data } }

/-- The meaning of `W NEW_DATA` (R105). -/
def execWNewData (data : Byte) (s : State) : Host.Outcome State Fault Refusal :=
  .next { s with pend := { s.pend with newDataFlag := flagOfByte data } }

/-- The meaning of `W CHECKSUM` (R106). ZMC never checks it. -/
def execWChecksum (data : Byte) (s : State) : Host.Outcome State Fault Refusal :=
  .next { s with pend := { s.pend with checksum := data } }

/-- The always-allowed set of the commit (R110, R111): Idle, Calibrate, PanicStop. -/
def alwaysAllowed (mode : Byte) : Bool := mode == 0 || mode == 1 || mode == 255

/-- Whether a commit of PEND succeeds (R110). -/
def commitSucceeds (s : State) : Bool := s.params.validate.accepts s.pend || alwaysAllowed s.pend.mode

/-- COMMIT (R110): replace CMD wholesale and set CMD_FRESH, or record the fault; PEND is zeroed either way. -/
def commit (s : State) : State :=
  let c := if commitSucceeds s then setFresh { s with cmd := s.pend } else raiseFault .invalidCommand s
  { c with pend := .zero }

/-- The meaning of `W COMMIT` (R110). DATA is ignored. -/
def execWCommit (_data : Byte) (s : State) : Host.Outcome State Fault Refusal := .next (commit s)

/-- The meaning of `W unmapped/read-only` (R107): no state changes. -/
def execWUnmapped (_addr : Addr) (_data : Byte) (s : State) : Host.Outcome State Fault Refusal := .next s

/-- The meaning of `R` (R118): the byte of SNAP at the address is returned, and nothing else changes. DATA is ignored. -/
def execR (addr : Addr) (_data : Byte) (s : State) : Host.Outcome State Fault Refusal :=
  .next { s with resp := some (readByte s.snap addr) }

end Sys2Proof.Machine
end

