-- ==== Sys2Proof/Machine/Controllers.lean ====
section
/-! DEFINITION. The position and current controllers (44_controllers.md). -/

namespace Sys2Proof.Machine

/-- The integral after the accumulation: sat32(L.integ + e) (R232). -/
def pidAccumulate (l : LoopState) (e : Int) : Int := sat32 (l.integ.toInt + e)

/-- The derivative used by this run: sampled when the decimation phase is 0, held otherwise (R232, R233). -/
def pidDerivative (l : LoopState) (e : Int) : Int :=
  if l.dcount = 0 then sat32 (e - l.errPrev.toInt) else l.deriv.toInt

/-- The error at the latest derivative sample (R232, R233). -/
def pidSampleErr (l : LoopState) (e : Int) : Int := if l.dcount = 0 then e else l.errPrev.toInt

/-- The exact output, scaled by 2^S (R232). -/
def pidRaw (g : Gains) (e i d : Int) : Int :=
  (g.kp.toNat : Int) * e + (g.ki.toNat : Int) * i + (g.kd.toNat : Int) * d

/-- The output and the integral after the saturation and its conditional recomputation (R232, R237, R238): the integral
only ever moves away from the saturated side. -/
def pidSaturate (g : Gains) (e i u lo hi : Int) (shift : Nat) : Int × Int :=
  if u > hi then
    (hi, if g.ki.toNat > 0 then min i (sat32 (fdiv (hi * 2 ^ shift - g.kp.toNat * e) g.ki.toNat)) else i)
  else if u < lo then
    (lo, if g.ki.toNat > 0 then max i (sat32 (cdiv (lo * 2 ^ shift - g.kp.toNat * e) g.ki.toNat)) else i)
  else (u, i)

/-- PID_STEP(L, G, e, lo, hi, S) (R232), with N_D = `nD`: the new loop state and the output. -/
def pidStep (nD : Nat) (l : LoopState) (g : Gains) (e lo hi : Int) (shift : Nat) : LoopState × Int :=
  let i := pidAccumulate l e
  let d := pidDerivative l e
  let u := fdiv (pidRaw g e i d) (2 ^ shift)
  let sat := pidSaturate g e i u lo hi shift
  ({ err := BitVec.ofInt 32 e
     errPrev := BitVec.ofInt 32 (pidSampleErr l e)
     integ := BitVec.ofInt 32 sat.2
     deriv := BitVec.ofInt 32 d
     dcount := BitVec.ofNat 8 ((l.dcount.toNat + 1) % nD) }, sat.1)

/-- The position error e_p (R231). -/
def positionError (s : State) : Int :=
  smod ((s.posSp.toNat : Int) - (s.trk.abs.toNat : Int)) (s.params.ppr : Int)

/-- The position loop's run of RUN_LOOPS(limit) (R234). -/
def runPositionLoop (limit : Nat) (s : State) : LoopState × Int :=
  pidStep s.params.nD s.ploop s.gainsP (positionError s) (-(limit : Int)) limit s.params.sP

/-- The current loop's run of RUN_LOOPS (R234), on the magnitude of the current setpoint `up` (R235). -/
def runCurrentLoop (up : Int) (s : State) : LoopState × Int :=
  pidStep s.params.nD s.cloop s.gainsC ((up.natAbs : Int) - (s.lastCur.toNat : Int)) 0 s.params.dutyMax s.params.sC

/-- The drive direction: FWD when the current setpoint is not negative (R236). -/
def driveDir (up : Int) : Dir := if up ≥ 0 then .fwd else .bwd

/-- DRIVE for a direction (R32, R234). -/
def driveOf : Dir → Drive
  | .fwd => .fwd
  | .bwd => .bwd

/-- RUN_LOOPS(limit) (R234): the position loop, the current loop, then the H-bridge, always in sign-magnitude mode
(R236). -/
def runLoops (limit : Nat) (s : State) : State :=
  let pos := runPositionLoop limit s
  let cur := runCurrentLoop pos.2 s
  setAct (.drive (driveDir pos.2) (BitVec.ofInt 16 cur.2) .signMagnitude)
    { s with
      ploop := pos.1
      curSp := BitVec.ofInt 16 pos.2
      cloop := cur.1
      duty := BitVec.ofInt 16 cur.2
      drive := driveOf (driveDir pos.2) }

end Sys2Proof.Machine
end

