-- ==== Sys2Proof/Machine/Tracker.lean ====
section
/-! DEFINITION. The absolute position tracker (45_tracker.md). -/

namespace Sys2Proof.Machine

/-- TRACK_UPDATE(raw) on the tracker record (R260), with the rotation of `p`. -/
def trackRaw (p : Params) (raw : Half) (t : Tracker) : Tracker :=
  let delta := smod ((raw.toNat : Int) - (t.prevRaw.toNat : Int)) (p.ppr : Int)
  { abs := position p ((t.abs.toNat : Int) + delta), prevRaw := raw }

/-- TRACK_UPDATE(raw) (R260): in phase 1 of every tick, whatever the mode (R261). -/
def trackUpdate (raw : Half) (s : State) : State := { s with trk := trackRaw s.params raw s.trk }

/-- TRACK_RESET (R262). Its only caller is HARD_STOP (R167). -/
def trackReset (s : State) : State := { s with trk := { abs := 0, prevRaw := 0 } }

end Sys2Proof.Machine
end

