-- ==== Sys2Proof/Machine/Calibration.lean ====
section
/-! DEFINITION. The calibration sequencer (42_calibration.md), the single-edge variant (R160). -/

namespace Sys2Proof.Machine

/-- SAMPLE_N zeros: the emptied sample buffer (R163, R171, R172). -/
def clearedSamples (p : Params) : List Half := List.replicate p.sampleN 0

/-- CAL_ABORT (R172). It neither writes LAST_KNOWN nor resets the encoder. -/
def calAbort (s : State) : State :=
  zeroLoops
    { s with
      gainsP := s.savedP
      gainsC := s.savedC
      cal :=
        { s.cal with
          flag := false, step := 0, dbActive := false, samples := clearedSamples s.params, scount := 0 } }

/-- The record CAL as CAL_ENTER leaves it (R163). -/
def enteredCal (s : State) : Calibration :=
  { step := 1
    flag := true
    gateWin := gateWindow s.tickIn.now
    dbActive := false
    dbStart := 0
    stepStart := s.tickIn.now
    ref := 0
    samples := clearedSamples s.params
    scount := 0 }

/-- CAL_ENTER (R163), step 0: both gain sets are swapped, the loops start from zero, the setpoint holds the present
position. -/
def calEnter (s : State) : State :=
  runLoops s.params.calPosOutLimit
    (zeroLoops
      { s with
        savedP := s.gainsP
        savedC := s.gainsC
        gainsP := s.params.calGainsP
        gainsC := s.params.calGainsC
        cal := enteredCal s
        posSp := s.trk.abs })

/-- Whether GATE(now) fires: the tick is the first one seen in its 10 ms window (R162). -/
def gateFires (s : State) : Bool := gateWindow s.tickIn.now != s.cal.gateWin

/-- GATE's write of CAL.gate_win when it fires (R162). -/
def gateMark (s : State) : State := { s with cal := { s.cal with gateWin := gateWindow s.tickIn.now } }

/-- Whether the measured current exceeds the hard-stop threshold (R166). -/
def overThreshold (s : State) : Bool := decide (s.lastCur.toNat > s.params.calIThresh)

/-- The debounce state after DEBOUNCE (R166): a window opens, goes on, or is dropped. -/
def debounceMark (s : State) : State :=
  if overThreshold s then
    if s.cal.dbActive then s
    else { s with cal := { s.cal with dbActive := true, dbStart := s.tickIn.now } }
  else { s with cal := { s.cal with dbActive := false } }

/-- What DEBOUNCE returns, from the state it leaves (R166): the current has stayed above the threshold long enough. -/
def debounceDone (s : State) : Bool :=
  overThreshold s && decide (elapsed s.tickIn.now s.cal.dbStart ≥ s.params.debounceMs)

/-- CAL_TIMED_OUT (R164). -/
def calTimedOut (s : State) : Bool :=
  s.params.calStepTimeoutMs != 0 && decide (elapsed s.tickIn.now s.cal.stepStart ≥ s.params.calStepTimeoutMs)

/-- CAL_TIMEOUT (R164): to PanicStop (C22). -/
def calTimeout (s : State) : State := revertMode 255 (raiseFault .sensorTimeout (safeOff (calAbort s)))

/-- HARD_STOP (R167): the encoder and the tracker are zeroed together. -/
def hardStop (s : State) : State :=
  safeOff
    { trackReset (emitEncReset s) with
      posSp := 0
      cal :=
        { s.cal with
          ref := 0, dbActive := false
          step := 2, stepStart := s.tickIn.now, gateWin := gateWindow s.tickIn.now } }

/-- One pulse down: (POS_SP - 1) mod PPR (R165, R170). -/
def pulseDown (s : State) : State := { s with posSp := position s.params ((s.posSp.toNat : Int) - 1) }

/-- One pulse up: (POS_SP + 1) mod PPR (R168). -/
def pulseUp (s : State) : State := { s with posSp := position s.params ((s.posSp.toNat : Int) + 1) }

/-- `if GATE(IN.now) then POS_SP <- (POS_SP - 1) mod PPR` (R165, R170). -/
def rampDown (s : State) : State := if gateFires s then pulseDown (gateMark s) else s

/-- CAL_PROBE (R165), step 1. A detection on the tick of the timeout wins (R310). -/
def calProbe (s : State) : State :=
  let d := debounceMark s
  if debounceDone d then hardStop d
  else if calTimedOut d then calTimeout d
  else runLoops d.params.calPosOutLimit (rampDown d)

/-- The sweep's sample of the hall sensor, while the buffer has room (R168). -/
def takeSample (s : State) : State :=
  if s.cal.scount.toNat < s.params.sampleN then
    { s with
      cal :=
        { s.cal with
          samples := s.cal.samples.set s.cal.scount.toNat s.tickIn.hallAdc
          scount := BitVec.ofNat 8 (s.cal.scount.toNat + 1) } }
  else s

/-- The target of the sweep: (CAL.ref + SEARCH_OFFSET) mod PPR (R168). -/
def sweepTarget (s : State) : Half := position s.params ((s.cal.ref.toNat : Int) + (s.params.searchOffset : Int))

/-- CAL_SWEEP's step before the loops run (R168). -/
def sweepMove (s : State) : State :=
  if s.posSp = sweepTarget s then { s with cal := { s.cal with step := 3, stepStart := s.tickIn.now } }
  else if gateFires s then takeSample (pulseUp (gateMark s))
  else s

/-- CAL_SWEEP (R168), step 2. -/
def calSweep (s : State) : State := runLoops s.params.calPosOutLimit (sweepMove s)

/-- CAL_RESET_DETECTOR (R169), step 3. -/
def calResetDetector (s : State) : State :=
  let h := emitHallReset s
  runLoops s.params.calPosOutLimit { h with cal := { h.cal with step := 4, stepStart := s.tickIn.now } }

/-- CAL_SEARCH's actions when the edge is seen (R170). The tracker is not reset (R265). -/
def edgeFound (s : State) : State :=
  safeOff
    { emitEncReset s with
      lastKnown := 0, posSp := 0, cal := { s.cal with step := 5, stepStart := s.tickIn.now } }

/-- CAL_SEARCH (R170), step 4. A detection on the tick of the timeout wins (R310). -/
def calSearch (s : State) : State :=
  if s.tickIn.hallDet then edgeFound s
  else if calTimedOut s then calTimeout s
  else runLoops s.params.calPosOutLimit (rampDown s)

/-- CAL_EXIT (R171), step 5. CAL.step stays 5. -/
def calExit (s : State) : State :=
  revertMode 0 (safeOff
    { s with
      gainsP := s.savedP
      gainsC := s.savedC
      cal :=
        { s.cal with flag := false, samples := clearedSamples s.params, scount := 0, dbActive := false } })

/-- CAL_BRANCH (R161). -/
def calBranch (s : State) : State :=
  if s.cal.flag then
    match s.cal.step.toNat with
    | 1 => calProbe s
    | 2 => calSweep s
    | 3 => calResetDetector s
    | 4 => calSearch s
    | 5 => calExit s
    | _ => calEnter s
  else calEnter s

end Sys2Proof.Machine
end

