-- ==== Sys2Proof/Machine/Profile.lean ====
section
/-! DEFINITION. The trapezoidal motion-profile generator (43_profile.md). -/

namespace Sys2Proof.Machine

/-- PROFILE_S(t) for a profile of distance `d`, duration `T` and ramp `a` (R205): the floors of the exact trapezoid. -/
def profileS (d T a t : Int) : Int :=
  if t < a then fdiv (d * t * t) (2 * a * (T - a))
  else if t ≤ T - a then fdiv (d * (2 * t - a)) (2 * (T - a))
  else
    let u := T - t
    fdiv (d * (2 * a * (T - a) - u * u)) (2 * a * (T - a))

/-- PROFILE_S(t) of a PROF record (R205). -/
def profileDistance (f : Profile) (t : Nat) : Int :=
  profileS f.dist.toNat f.dur.toNat f.tad.toNat t

/-- A degenerate command: time16 <= 2 * T_AD (R203). -/
def degenerate (s : State) : Bool := decide ((time16 s.cmd).toNat ≤ 2 * s.params.tAd)

/-- The forward modulo distance from the present absolute position to the target (R201, R202). -/
def forwardDistance (s : State) : Half :=
  position s.params ((((target16 s.cmd).toNat % s.params.ppr : Nat) : Int) - (s.trk.abs.toNat : Int))

/-- The profile that PROF_DERIVE writes for a command that is not degenerate (R201). -/
def derivedProfile (s : State) : Profile :=
  { active := true
    startPos := s.trk.abs
    startTime := s.tickIn.now
    dist := forwardDistance s
    dur := time16 s.cmd
    tad := BitVec.ofNat 16 s.params.tAd }

/-- PROF_DERIVE for a command that is not degenerate (R201). -/
def profDerive (s : State) : State := zeroLoops { s with prof := derivedProfile s }

/-- PROF_REJECT (R203). -/
def profReject (s : State) : State :=
  revertMode 0 (raiseFault .degenerateProfile (safeOff { s with prof := { s.prof with active := false } }))

/-- PROF_COMPLETE (R206). LAST_KNOWN is the encoder reading, wherever the motor stands. -/
def profComplete (s : State) : State :=
  revertMode 0 (safeOff
    { s with
      lastKnown := s.lastEnc
      posSp := position s.params ((s.prof.startPos.toNat : Int) + (s.prof.dist.toNat : Int))
      prof := { s.prof with active := false } })

/-- PROF_DISCARD (R207). -/
def profDiscard (s : State) : State := { s with prof := { s.prof with active := false } }

/-- The elapsed time of the segment (R204). -/
def segmentTime (s : State) : Nat := elapsed s.tickIn.now s.prof.startTime

/-- The setpoint of a segment in progress (R200, R205). -/
def profileSetpoint (s : State) : Half :=
  position s.params ((s.prof.startPos.toNat : Int) + profileDistance s.prof (segmentTime s))

/-- The part of WALK_BRANCH after the derivation (R200): complete the segment, or produce the setpoint. -/
def walkSegment (s : State) : State :=
  if segmentTime s ≥ s.prof.dur.toNat then profComplete s
  else runLoops s.params.posOutLimit { s with posSp := profileSetpoint s }

/-- WALK_BRANCH(fresh) (R200). A degenerate command is rejected before any completion test (R310). -/
def walkBranch (fresh : Bool) (s : State) : State :=
  if fresh || !s.prof.active then
    if degenerate s then profReject s else walkSegment (profDerive s)
  else walkSegment s

end Sys2Proof.Machine
end

