-- ==== Sys2Proof/Machine/Modes.lean ====
section
/-! DEFINITION. The mode branches (41_dispatcher.md R134 to R139): the meanings of the MODE rows of the opcode table.
A branch runs in phase 4 of a tick (R130): it reads the tick's IN (`tickIn`) and writes its OUT (`out`) (log 9). -/

namespace Sys2Proof.Machine

/-- MODE_IDLE (R134). -/
def modeIdle (s : State) : State := safeOff s

/-- MODE_CALIBRATE (R135). `fresh` is ignored. -/
def modeCalibrate (s : State) : State := calBranch s

/-- MODE_WALK_FORWARD(fresh) (R136). -/
def modeWalkForward (fresh : Bool) (s : State) : State := walkBranch fresh s

/-- MODE_PANIC_STOP (R139). The mode is held and no fault is recorded. -/
def modePanicStop (s : State) : State := safeOff s

/-- MODE_UNRECOGNIZED (R138). -/
def modeUnrecognized (s : State) : State := revertMode 0 (raiseFault .unrecognizedMode (safeOff s))

/-- The meaning of `MODE Idle` (R134). -/
def execModeIdle (s : State) : Host.Outcome State Fault Refusal := .next (modeIdle s)

/-- The meaning of `MODE Calibrate` (R135). -/
def execModeCalibrate (s : State) : Host.Outcome State Fault Refusal := .next (modeCalibrate s)

/-- The meaning of `MODE WalkForward` (R136), with the tick's `fresh`. -/
def execModeWalkForward (s : State) : Host.Outcome State Fault Refusal := .next (modeWalkForward s.tickFresh s)

/-- The meaning of `MODE PanicStop` (R139). -/
def execModePanicStop (s : State) : Host.Outcome State Fault Refusal := .next (modePanicStop s)

/-- The meaning of `MODE unrecognized` (R138). No fault records the mode value (R301). -/
def execModeUnrecognized (_mode : Byte) (s : State) : Host.Outcome State Fault Refusal := .next (modeUnrecognized s)

end Sys2Proof.Machine
end

