-- ==== Sys2Proof/Machine/Tick.lean ====
section
/-! DEFINITION. The control tick (41_dispatcher.md R130 to R132): the meaning of the TICK row. -/

namespace Sys2Proof.Machine

/-- The start of a tick: IN is sampled once (R47) and OUT has its default (R48, R130). -/
def openTick (inp : TickIn) (s : State) : State := { s with tickIn := inp, out := .default }

/-- Phase 1 (R130): sample and track. -/
def sampleAndTrack (s : State) : State :=
  let raw := sampledEnc s.params s.tickIn
  trackUpdate raw { s with lastEnc := raw, lastCur := sampledCur s.tickIn }

/-- Phase 2 (R130): read the command's freshness and clear it. -/
def readCommand (s : State) : State := clearFresh { s with tickFresh := s.cmdFresh }

/-- EXIT_CHECKS(m) (R131), phase 3: end any sub-sequence that the current mode does not own. -/
def exitChecks (m : Byte) (s : State) : State :=
  let a := if s.cal.flag && m != 1 then calAbort s else s
  if a.prof.active && m != 3 then profDiscard a else a

/-- DISPATCH(m, fresh) (R132), phase 4: exactly one branch, on every tick, from the current mode. -/
def dispatch (m : Byte) (fresh : Bool) (s : State) : State :=
  match m.toNat with
  | 0 => modeIdle s
  | 1 => modeCalibrate s
  | 3 => modeWalkForward fresh s
  | 255 => modePanicStop s
  | _ => modeUnrecognized s

/-- Phases 1 and 2 of a tick with input `inp` (R130): sampled and tracked, the command read. -/
def commandRead (inp : TickIn) (s : State) : State := readCommand (sampleAndTrack (openTick inp s))

/-- The state in which a tick with input `inp` dispatches: after phases 1 to 3 (R130). -/
def beforeDispatch (inp : TickIn) (s : State) : State :=
  exitChecks (commandRead inp s).cmd.mode (commandRead inp s)

/-- TICK(IN) (R130): one atomic step of the tick engine. -/
def tickStep (inp : TickIn) (s : State) : State :=
  publish (dispatch (commandRead inp s).cmd.mode (commandRead inp s).tickFresh (beforeDispatch inp s))

/-- The meaning of `TICK` (R130). -/
def execTick (inp : TickIn) (s : State) : Host.Outcome State Fault Refusal := .next (tickStep inp s)

end Sys2Proof.Machine
end

