-- ==== Sys2Proof/Machine/Dispatch.lean ====
section
/-! DEFINITION. One arm per row of the opcode table. -/

namespace Sys2Proof.Machine

def exec (i : Instr) (s : State) : Host.Outcome State Fault Refusal :=
  match i with
  | .wMode data => Sys2Proof.Machine.execWMode data s
  | .wTargetA data => Sys2Proof.Machine.execWTargetA data s
  | .wTargetB data => Sys2Proof.Machine.execWTargetB data s
  | .wTimeA data => Sys2Proof.Machine.execWTimeA data s
  | .wTimeB data => Sys2Proof.Machine.execWTimeB data s
  | .wNewData data => Sys2Proof.Machine.execWNewData data s
  | .wChecksum data => Sys2Proof.Machine.execWChecksum data s
  | .wCommit data => Sys2Proof.Machine.execWCommit data s
  | .wUnmapped addr data => Sys2Proof.Machine.execWUnmapped addr data s
  | .r addr data => Sys2Proof.Machine.execR addr data s
  | .modeIdle => Sys2Proof.Machine.execModeIdle s
  | .modeCalibrate => Sys2Proof.Machine.execModeCalibrate s
  | .modeWalkForward => Sys2Proof.Machine.execModeWalkForward s
  | .modePanicStop => Sys2Proof.Machine.execModePanicStop s
  | .modeUnrecognized mode => Sys2Proof.Machine.execModeUnrecognized mode s
  | .tick inp => Sys2Proof.Machine.execTick inp s

end Sys2Proof.Machine
end

