-- ==== Sys2Proof/WellFormed.lean ====
section
/-! DEFINITION. Which terms of Instr are instructions: the two catch-all rows of the opcode table stand only for
the words that no other row has (30_encoding.md R86, R90). -/

namespace Sys2Proof

/-- The writable addresses are 0x0000 to 0x0007 (R84): `W unmapped/read-only` is every other address (R107). -/
def writableAddr (addr : Addr) : Bool := decide (addr.toNat ≤ 7)

/-- The recognized mode bytes are 0, 1, 3 and 255 (R90). -/
def recognizedMode (mode : Byte) : Bool := mode == 0 || mode == 1 || mode == 3 || mode == 255

/-- The check that an `Instr` is an instruction. -/
def Instr.wf : Instr → Bool
  | .wMode _ => true
  | .wTargetA _ => true
  | .wTargetB _ => true
  | .wTimeA _ => true
  | .wTimeB _ => true
  | .wNewData _ => true
  | .wChecksum _ => true
  | .wCommit _ => true
  | .wUnmapped addr _ => !writableAddr addr
  | .r _ _ => true
  | .modeIdle => true
  | .modeCalibrate => true
  | .modeWalkForward => true
  | .modePanicStop => true
  | .modeUnrecognized mode => !recognizedMode mode
  | .tick _ => true

end Sys2Proof
end

