-- ==== Sys2Proof/Decode.lean ====
section
/-! DEFINITION. Decoding and encoding (30_encoding.md R80 to R92). A BUS word and a mode byte each decode to exactly
one instruction (R86, R90); a tick has no bit encoding (R82) and carries its input record. -/

namespace Sys2Proof

/-- The encoded inputs of ZMC: formats BUS (R80), MODE (R81) and EVENT (R82). -/
inductive Code where
  | bus (word : BusWord)
  | mode (byte : Byte)
  | tick (inp : TickIn)
deriving DecidableEq, Repr

/-- Bit 24 of a BUS word, its most significant bit: 1 = write (R80). -/
def busIsWrite (w : BusWord) : Bool := w.msb

/-- Bits [23:8] of a BUS word (R80). -/
def busAddr (w : BusWord) : Addr := w.extractLsb' 8 16

/-- Bits [7:0] of a BUS word (R80). -/
def busData (w : BusWord) : Byte := w.extractLsb' 0 8

/-- A write transaction, by the row of R84 that contains its address (R86). -/
def decodeWrite (addr : Addr) (data : Byte) : Instr :=
  match addr.toNat with
  | 0x0000 => .wMode data
  | 0x0001 => .wTargetA data
  | 0x0002 => .wTargetB data
  | 0x0003 => .wTimeA data
  | 0x0004 => .wTimeB data
  | 0x0005 => .wNewData data
  | 0x0006 => .wChecksum data
  | 0x0007 => .wCommit data
  | _ => .wUnmapped addr data

/-- Decoding a BUS word is total (R86): no BUS word is illegal. -/
def decodeBus (w : BusWord) : Instr :=
  if busIsWrite w then decodeWrite (busAddr w) (busData w) else .r (busAddr w) (busData w)

/-- The mode byte selects the dispatch branch (R90). -/
def decodeMode (b : Byte) : Instr :=
  match b.toNat with
  | 0 => .modeIdle
  | 1 => .modeCalibrate
  | 3 => .modeWalkForward
  | 255 => .modePanicStop
  | _ => .modeUnrecognized b

/-- The instruction an encoded input stands for. -/
def decode : Code → Instr
  | .bus w => decodeBus w
  | .mode b => decodeMode b
  | .tick inp => .tick inp

/-- A BUS word from its fields W, ADDR and DATA (R80). -/
def busWord (write : Bool) (addr : Addr) (data : Byte) : BusWord :=
  BitVec.ofNat 25 ((if write then 2 ^ 24 else 0) + addr.toNat * 2 ^ 8 + data.toNat)

/-- The encoded input of a well-formed instruction, from the tables of R80, R84 and R90. -/
def encode : Instr → Code
  | .wMode data => .bus (busWord true 0x0000 data)
  | .wTargetA data => .bus (busWord true 0x0001 data)
  | .wTargetB data => .bus (busWord true 0x0002 data)
  | .wTimeA data => .bus (busWord true 0x0003 data)
  | .wTimeB data => .bus (busWord true 0x0004 data)
  | .wNewData data => .bus (busWord true 0x0005 data)
  | .wChecksum data => .bus (busWord true 0x0006 data)
  | .wCommit data => .bus (busWord true 0x0007 data)
  | .wUnmapped addr data => .bus (busWord true addr data)
  | .r addr data => .bus (busWord false addr data)
  | .modeIdle => .mode 0
  | .modeCalibrate => .mode 1
  | .modeWalkForward => .mode 3
  | .modePanicStop => .mode 255
  | .modeUnrecognized mode => .mode mode
  | .tick inp => .tick inp

/-- Why bits that the opcode table numbers are no encoded input of ZMC. -/
inductive DecodeError where
  /-- More than 8 bits are given but a bit above bit 24 is set: no BUS word has it (R80). -/
  | busBitAbove24
  /-- At most 8 bits are given but a bit above bit 7 is set: no mode byte has it (R81). -/
  | modeBitAbove7
  /-- No bits are given but one is set: a tick has no bit encoding (R82). -/
  | tickBitSet
  /-- More than 32 bits are given: no format is as long (R92). -/
  | tooLong
deriving DecidableEq, Repr

/-- IN with every field 0: what R93 takes for the fields that a first TICK line omits. -/
def TickIn.zero : TickIn := { enc := 0, cur := 0, hallDet := false, hallAdc := 0, now := 0 }

/-- The encoded input that `nbits` bits `w` of the opcode table stand for (log 10). The three formats have different
lengths in whole bytes: TICK none, MODE one, BUS four. Total: everything else is rejected by name. -/
def codeOfTable (nbits w : Nat) : Except DecodeError Code :=
  if nbits = 0 then
    if w = 0 then .ok (.tick TickIn.zero) else .error .tickBitSet
  else if nbits ≤ 8 then
    if w < 2 ^ 8 then .ok (.mode (BitVec.ofNat 8 w)) else .error .modeBitAbove7
  else if nbits ≤ 32 then
    if w < 2 ^ 25 then .ok (.bus (BitVec.ofNat 25 w)) else .error .busBitAbove24
  else .error .tooLong

/-- The instruction read from an opcode-table word, numbered as spec/opcode_table.json numbers its bits. -/
def decodeTableWord (nbits w : Nat) : Option Instr :=
  match codeOfTable nbits w with
  | .ok c => some (decode c)
  | .error _ => none

end Sys2Proof
end

