-- ==== Sys2Proof/Machine/Fetch.lean ====
section
/-! DEFINITION. Where the next step comes from (00_scope.md R7; 60_exceptions.md R311): a held bus transaction first,
then the events already placed, then a free draw of the environment (log 3, log 4, log 5). -/

namespace Sys2Proof.Machine

/-- Taking an event: the encoded input it starts, and the state that remains. The transactions that arrive during a tick
are held; they run after it, before anything else, in the order of their issue (R7, R68, R311). -/
def takeEvent (e : Event) (s : State) : Code × State :=
  match e with
  | .bus w => (.bus w, s)
  | .tick inp during => (.tick inp, { s with held := s.held ++ during })

/-- The encoded input of the next step, and the state in which it executes. -/
def fetch (s : State) : Code × State :=
  match s.held with
  | w :: rest => (.bus w, { s with held := rest })
  | [] =>
    match s.events with
    | e :: rest => takeEvent e { s with events := rest }
    | [] => takeEvent (Config.event s.draws) { s with draws := s.draws + 1 }

/-- `s` with an encoded input placed where `fetch` takes its next one (log 11). A bus word is held. A tick needs that no
transaction is held. A mode byte is executed by a tick that finds it in CMD.mode, so it is stored there, and a tick with
the latest input record is placed. -/
def placeCode (c : Code) (s : State) : State :=
  match c with
  | .bus w => { s with held := w :: s.held }
  | .mode b =>
    { s with cmd := { s.cmd with mode := b }, held := [], events := .tick s.tickIn [] :: s.events }
  | .tick inp => { s with held := [], events := .tick inp [] :: s.events }

/-- `s` with an opcode-table word placed to be fetched next. A word that is no encoded input places nothing. -/
def placeTableWord (nbits w : Nat) (s : State) : State :=
  match codeOfTable nbits w with
  | .ok c => placeCode c s
  | .error _ => s

end Sys2Proof.Machine
end

