-- ==== Sys2Proof/Machine/Step.lean ====
section
/-! DEFINITION. One step of ZMC (00_scope.md R7): the next bus transaction or tick, executed to completion. -/

namespace Sys2Proof.Machine

/-- One atomic step. -/
def step (s : State) : Host.Outcome State Fault Refusal :=
  exec (decode (fetch s).1) (fetch s).2

/-- `s` with an instruction of the opcode table stored where `step` fetches its next one. -/
def State.withFetchWord (s : State) (nbits w : Nat) : State := placeTableWord nbits w s

end Sys2Proof.Machine
end

