-- ==== Sys2Proof/Safety.lean ====
section
/-! DEFINITION. What a good state of ZMC is: the invariants that 10_state.md R40 lists, with the ranges of R29 to R35
that they rest on, and the agreement of OUT with DRIVE and DUTY (R32, R48). -/

namespace Sys2Proof.Machine

/-- The actuation that DRIVE and DUTY stand for (R32, R48, R236): sign-magnitude, or disabled. -/
def actOf (d : Drive) (duty : Half) : Act :=
  match d with
  | .off => .disable
  | .fwd => .drive .fwd duty .signMagnitude
  | .bwd => .drive .bwd duty .signMagnitude

/-- A control loop whose decimation phase is in [0, N_D) (R28, R40). -/
def LoopState.Good (p : Params) (l : LoopState) : Prop := l.dcount.toNat < p.nD

/-- The positions of a state are in [0, PPR) (R29, R30, R31, R32, R33, R35, R40). -/
structure State.GoodPositions (s : State) : Prop where
  abs : s.trk.abs.toNat < s.params.ppr
  prevRaw : s.trk.prevRaw.toNat < s.params.ppr
  posSp : s.posSp.toNat < s.params.ppr
  lastKnown : s.lastKnown.toNat < s.params.ppr
  lastEnc : s.lastEnc.toNat < s.params.ppr
  startPos : s.prof.startPos.toNat < s.params.ppr
  dist : s.prof.dist.toNat < s.params.ppr
  ref : s.cal.ref.toNat < s.params.ppr

/-- The calibration record is in its ranges (R31, R40). -/
structure State.GoodCal (s : State) : Prop where
  step : s.cal.step.toNat ≤ 5
  running : s.cal.flag = true → 1 ≤ s.cal.step.toNat
  scount : s.cal.scount.toNat ≤ s.params.sampleN
  samples : s.cal.samples.length = s.params.sampleN

/-- The actuation is in its ranges and the outputs agree with it (R32, R40, R48, R236). -/
structure State.GoodDrive (s : State) : Prop where
  curSp : -(s.params.posOutLimit : Int) ≤ s.curSp.toInt ∧ s.curSp.toInt ≤ s.params.posOutLimit
  duty : s.duty.toNat ≤ s.params.dutyMax
  off : s.drive = .off → s.duty = 0 ∧ s.curSp = 0
  act : s.out.act = actOf s.drive s.duty

/-- The invariant of ZMC (R40), given parameters that meet R8. -/
structure State.Inv (s : State) : Prop where
  params : s.params.Valid
  positions : s.GoodPositions
  cal : s.GoodCal
  ploop : s.ploop.Good s.params
  cloop : s.cloop.Good s.params
  drive : s.GoodDrive
  lastCur : s.lastCur.toNat ≤ 32767
  lastFault : s.lastFault.toNat ≤ 4
  /-- An active profile is not degenerate, so no division of R205 has a divisor of 0 (R203, R306). -/
  ramp : s.prof.active = true → 2 * s.prof.tad.toNat < s.prof.dur.toNat

/-- The calibration gains are active exactly while a calibration is in progress, and then the saved gains are the normal
ones (R26, R27, R163, R171, R172). -/
structure State.GoodGains (s : State) : Prop where
  idle : s.cal.flag = false → s.gainsP = s.params.normGainsP ∧ s.gainsC = s.params.normGainsC
  running : s.cal.flag = true → s.gainsP = s.params.calGainsP ∧ s.gainsC = s.params.calGainsC
  saved : s.cal.flag = true → s.savedP = s.params.normGainsP ∧ s.savedC = s.params.normGainsC

/-- The actuation is off and both loops are zeroed: what SAFE_OFF leaves (R133). -/
structure State.SafeState (s : State) : Prop where
  act : s.out.act = .disable
  drive : s.drive = .off
  duty : s.duty = 0
  curSp : s.curSp = 0
  ploop : s.ploop = .zero
  cloop : s.cloop = .zero

end Sys2Proof.Machine
end

