-- ==== Sys2Proof/Certificates/Slice0/Obligations.lean ====
section
/-! DEFINITION. The statements about ZMC. Each docstring names the rule of spec/ it formalises; registers are read by
`toNat` or `toInt`, and where a statement gives a next state whole, whatever it does not name is unchanged. exec of a MODE
instruction is the branch of phase 4 of a tick by itself (log 9); the byte that a read returns stands in `resp` (log 8). -/

open Sys2Proof Sys2Proof.Machine

/-- An address in no row of the register map (30_encoding.md R84). -/
def Sys2Proof.Claims.unmapped (a : Addr) : Prop :=
  ¬(a.toNat ≤ 0x07 ∨ (0x10 ≤ a.toNat ∧ a.toNat ≤ 0x15) ∨ (0x20 ≤ a.toNat ∧ a.toNat ≤ 0x2D) ∨
    (0x30 ≤ a.toNat ∧ a.toNat ≤ 0x3B))

/-- The two rows of a 16-bit register: bits [15:8] at the lower address (R62). -/
def Sys2Proof.Claims.halfRows (addr v : Nat) : List (Nat × Byte) :=
  [(addr, BitVec.ofNat 8 (v / 256)), (addr + 1, BitVec.ofNat 8 (v % 256))]

/-- The R value of every row of the register map, from SNAP (R84). -/
def Sys2Proof.Claims.registerRows (n : Snap) : List (Nat × Byte) :=
  [(0x00, n.cmd.mode), (0x01, n.cmd.targetA), (0x02, n.cmd.targetB), (0x03, n.cmd.timeA), (0x04, n.cmd.timeB),
    (0x05, if n.cmd.newDataFlag then 0x01 else 0x00), (0x06, n.cmd.checksum), (0x07, 0x00),
    (0x10, n.lastFault), (0x11, n.faultCount), (0x12, n.calStep), (0x13, if n.calFlag then 0x01 else 0x00),
    (0x14, if n.profActive then 0x01 else 0x00),
    (0x15, if n.drive = .off then 0 else if n.drive = .fwd then 1 else 2)] ++
  Sys2Proof.Claims.halfRows 0x20 n.abs.toNat ++ Sys2Proof.Claims.halfRows 0x22 n.lastKnown.toNat ++
  Sys2Proof.Claims.halfRows 0x24 n.posSp.toNat ++ Sys2Proof.Claims.halfRows 0x26 (n.curSp.toInt % 65536).toNat ++
  Sys2Proof.Claims.halfRows 0x28 n.duty.toNat ++ Sys2Proof.Claims.halfRows 0x2A n.lastCur.toNat ++
  Sys2Proof.Claims.halfRows 0x2C n.lastEnc.toNat ++ Sys2Proof.Claims.halfRows 0x30 n.gainsP.kp.toNat ++
  Sys2Proof.Claims.halfRows 0x32 n.gainsP.ki.toNat ++ Sys2Proof.Claims.halfRows 0x34 n.gainsP.kd.toNat ++
  Sys2Proof.Claims.halfRows 0x36 n.gainsC.kp.toNat ++ Sys2Proof.Claims.halfRows 0x38 n.gainsC.ki.toNat ++
  Sys2Proof.Claims.halfRows 0x3A n.gainsC.kd.toNat

/-- The bus word with W = `w`, ADDR = `a`, DATA = `d`, as a number (R80). -/
def Sys2Proof.Claims.word (w a d : Nat) : BusWord := BitVec.ofNat 25 (w * 2 ^ 24 + a * 2 ^ 8 + d)

/-- The loop state after `k` runs from the zero state, with the error `e j` in run `j` (R233). -/
def Sys2Proof.Claims.loopRuns (nD : Nat) (g : Gains) (lo hi : Int) (shift : Nat) (e : Nat → Int) : Nat → LoopState
  | 0 => .zero
  | k + 1 => (pidStep nD (Sys2Proof.Claims.loopRuns nD g lo hi shift e k) g (e k) lo hi shift).1

/-- Executing the instructions `is` one after another leads from `s` to `t`. -/
def Sys2Proof.Claims.execAll : List Instr → State → State → Prop
  | [], s, t => s = t
  | i :: is, s, t => ∃ u, exec i s = .next u ∧ Sys2Proof.Claims.execAll is u t

/-- `n` steps of the machine lead from `s` to `t`. -/
def Sys2Proof.Claims.steps : Nat → State → State → Prop
  | 0, s, t => s = t
  | n + 1, s, t => ∃ u, step s = .next u ∧ Sys2Proof.Claims.steps n u t

/-- sat32 (R11). -/
def Sys2Proof.Claims.sat (v : Int) : Int := min (max v (-2 ^ 31)) (2 ^ 31 - 1)

open Sys2Proof.Claims

/-! Encoding -/

/-- R80, R81, R82, R84, R90: decoding an encoded instruction gives it back, with every operand. -/
def Obligations.DecodeEncodeAgree : Prop := ∀ i : Instr, i.wf = true → decode (encode i) = i

/-- R86, R90, R92: every BUS word, mode byte and tick is the encoding of the one well-formed instruction it decodes to. -/
def Obligations.EncodeDecodeAgree : Prop := ∀ c : Code, (decode c).wf = true ∧ encode (decode c) = c

/-- R86: any 25-bit word decodes to exactly one transaction, selected by W and by the row of R84 that contains ADDR;
no word is illegal and none traps; unmapped and read-only writes are no-ops, unmapped reads return 0x00. -/
def Obligations.EveryBusWordIsOneTransaction : Prop :=
  ∀ (w : BusWord) (s : State),
    let a : Addr := BitVec.ofNat 16 (w.toNat / 2 ^ 8)
    let d : Byte := BitVec.ofNat 8 w.toNat
    (w.toNat < 2 ^ 24 → decode (.bus w) = .r a d) ∧
    (2 ^ 24 ≤ w.toNat →
      decode (.bus w) =
        if a = 0 then .wMode d else if a = 1 then .wTargetA d else if a = 2 then .wTargetB d
        else if a = 3 then .wTimeA d else if a = 4 then .wTimeB d else if a = 5 then .wNewData d
        else if a = 6 then .wChecksum d else if a = 7 then .wCommit d else .wUnmapped a d) ∧
    (∃ t, exec (decode (.bus w)) s = .next t) ∧
    (2 ^ 24 ≤ w.toNat → 8 ≤ a.toNat → exec (decode (.bus w)) s = .next s) ∧
    (w.toNat < 2 ^ 24 → unmapped a → exec (decode (.bus w)) s = .next { s with resp := some 0x00 })

/-- R90: the mode byte selects the dispatch branch, and modes 0, 1 and 255 are the always-allowed set of the commit. -/
def Obligations.ModeByteSelectsBranch : Prop :=
  decode (.mode 0) = .modeIdle ∧ decode (.mode 1) = .modeCalibrate ∧ decode (.mode 3) = .modeWalkForward ∧
  decode (.mode 255) = .modePanicStop ∧
  (∀ b : Byte, b ≠ 0 → b ≠ 1 → b ≠ 3 → b ≠ 255 → decode (.mode b) = .modeUnrecognized b) ∧
  (∀ (d : Byte) (s : State), s.pend.mode = 0 ∨ s.pend.mode = 1 ∨ s.pend.mode = 255 →
    exec (.wCommit d) s = .next { s with cmd := s.pend, cmdFresh := true, pend := .zero })

/-- Words that 40_mailbox.md and 95_test_vectors.md write out, and two mode bytes of R90: the decoder reads them so. -/
def Obligations.WordsOfTheSpecDecode : Prop :=
  decodeTableWord 32 0x1000003 = some (.wMode 3) ∧ decodeTableWord 32 0x1000102 = some (.wTargetA 0x02) ∧
  decodeTableWord 32 0x10004D0 = some (.wTimeB 0xD0) ∧ decodeTableWord 32 0x1000580 = some (.wNewData 0x80) ∧
  decodeTableWord 32 0x100065A = some (.wChecksum 0x5A) ∧ decodeTableWord 32 0x1000742 = some (.wCommit 0x42) ∧
  decodeTableWord 32 0x10030FF = some (.wUnmapped 0x0030 0xFF) ∧ decodeTableWord 32 0x0002100 = some (.r 0x0021 0) ∧
  decodeTableWord 8 0x03 = some .modeWalkForward ∧ decodeTableWord 8 0xFE = some (.modeUnrecognized 0xFE)

/-! Mailbox -/

/-- R100 to R104: each write stores DATA in its field of PEND and changes nothing else; the two bytes of the target may
come in either order, and target16 has target_a as its high byte. -/
def Obligations.FieldWritesStoreInPend : Prop :=
  ∀ (d : Byte) (s : State),
    (decode (.bus (word 1 0x0000 d.toNat)) = .wMode d ∧
      exec (.wMode d) s = .next { s with pend := { s.pend with mode := d } }) ∧
    (decode (.bus (word 1 0x0001 d.toNat)) = .wTargetA d ∧
      exec (.wTargetA d) s = .next { s with pend := { s.pend with targetA := d } }) ∧
    (decode (.bus (word 1 0x0002 d.toNat)) = .wTargetB d ∧
      exec (.wTargetB d) s = .next { s with pend := { s.pend with targetB := d } }) ∧
    (decode (.bus (word 1 0x0003 d.toNat)) = .wTimeA d ∧
      exec (.wTimeA d) s = .next { s with pend := { s.pend with timeA := d } }) ∧
    (decode (.bus (word 1 0x0004 d.toNat)) = .wTimeB d ∧
      exec (.wTimeB d) s = .next { s with pend := { s.pend with timeB := d } }) ∧
    (∀ b : Byte, ∃ t u v : State,
      exec (.wTargetA d) s = .next t ∧ exec (.wTargetB b) t = .next v ∧
      exec (.wTargetB b) s = .next u ∧ exec (.wTargetA d) u = .next v ∧
      (target16 v.pend).toNat = 256 * d.toNat + b.toNat)

/-- R105, R106: NEW_DATA stores DATA != 0 and CHECKSUM stores DATA; both are committed and published, and neither ever
has an effect on a tick. -/
def Obligations.FlagAndChecksumOnlyStored : Prop :=
  (∀ (d : Byte) (s : State),
    decode (.bus (word 1 0x0005 d.toNat)) = .wNewData d ∧
    exec (.wNewData d) s = .next { s with pend := { s.pend with newDataFlag := decide (d ≠ 0) } } ∧
    decode (.bus (word 1 0x0006 d.toNat)) = .wChecksum d ∧
    exec (.wChecksum d) s = .next { s with pend := { s.pend with checksum := d } }) ∧
  (∀ (inp : TickIn) (s : State) (f : Bool) (c : Byte), ∃ t,
    exec (.tick inp) s = .next t ∧
    exec (.tick inp) { s with cmd := { s.cmd with newDataFlag := f, checksum := c } } =
      .next
        { t with
          cmd := { t.cmd with newDataFlag := f, checksum := c }
          snap := { t.snap with cmd := { t.cmd with newDataFlag := f, checksum := c } } }) ∧
  (∀ (d : Byte) (s : State),
    s.params.validate.accepts s.pend = true ∨ s.pend.mode = 0 ∨ s.pend.mode = 1 ∨ s.pend.mode = 255 → ∃ t,
      exec (.wCommit d) s = .next t ∧
      t.cmd.newDataFlag = s.pend.newDataFlag ∧ t.cmd.checksum = s.pend.checksum) ∧
  (∀ (inp : TickIn) (s : State), ∃ t,
    exec (.tick inp) s = .next t ∧
    t.snap.cmd.newDataFlag = s.cmd.newDataFlag ∧ t.snap.cmd.checksum = s.cmd.checksum)

/-- R107: a write to an address other than 0x0000 to 0x0007 changes no state. -/
def Obligations.OtherWritesChangeNothing : Prop :=
  ∀ (a : Addr) (d : Byte) (s : State), 8 ≤ a.toNat →
    decode (.bus (word 1 a.toNat d.toNat)) = .wUnmapped a d ∧ exec (.wUnmapped a d) s = .next s

/-- R110, R302: a commit whose PEND is valid or has an always-allowed mode replaces CMD whole and sets CMD_FRESH; any
other records INVALID_COMMAND; PEND is zeroed either way. With the default VALIDATE every commit succeeds. -/
def Obligations.CommitReplacesOrDrops : Prop :=
  ∀ (d : Byte) (s : State),
    let ok := s.params.validate.accepts s.pend = true ∨ s.pend.mode = 0 ∨ s.pend.mode = 1 ∨ s.pend.mode = 255
    let zero : MotionCommand :=
      { mode := 0, targetA := 0, targetB := 0, timeA := 0, timeB := 0, newDataFlag := false, checksum := 0 }
    decode (.bus (word 1 0x0007 d.toNat)) = .wCommit d ∧
    (ok → exec (.wCommit d) s = .next { s with cmd := s.pend, cmdFresh := true, pend := zero }) ∧
    (¬ok →
      exec (.wCommit d) s =
        .next
          { s with lastFault := 1, faultCount := BitVec.ofNat 8 (min (s.faultCount.toNat + 1) 255), pend := zero }) ∧
    (s.params.validate = .default → ok)

/-- R118: a read returns the R value of the row of R84 that contains ADDR, computed from SNAP, 0x00 where no row does,
whatever DATA is; it changes nothing but the byte returned (log 8). -/
def Obligations.ReadReturnsSnapByte : Prop :=
  ∀ (d : Byte) (s : State),
    (∀ a : Addr, decode (.bus (word 0 a.toNat d.toNat)) = .r a d) ∧
    (∀ row ∈ registerRows s.snap, exec (.r (BitVec.ofNat 16 row.1) d) s = .next { s with resp := some row.2 }) ∧
    (∀ a : Addr, unmapped a → exec (.r a d) s = .next { s with resp := some 0x00 })

/-- The reset column of the table of 30_encoding.md "Register map": before the first tick every byte reads 0x00 but the
gains, which are the normal ones. -/
def Obligations.RegisterMapAtReset : Prop :=
  ∀ (p : Params) (a : Addr) (d : Byte),
    exec (.r a d) (State.resetWith p) =
      .next
        { State.resetWith p with
          resp := some (
            (halfRows 0x30 p.normGainsP.kp.toNat ++ halfRows 0x32 p.normGainsP.ki.toNat ++
              halfRows 0x34 p.normGainsP.kd.toNat ++ halfRows 0x36 p.normGainsC.kp.toNat ++
              halfRows 0x38 p.normGainsC.ki.toNat ++ halfRows 0x3A p.normGainsC.kd.toNat).lookup a.toNat
            |>.getD 0x00) }

/-- 20_memory.md "Atomicity and side effects": a field write repeated leaves the same state and the last write wins; a
read repeated returns the same byte; a second commit commits the zeroed PEND. -/
def Obligations.RepeatedTransactions : Prop :=
  (∀ (d d' : Byte) (s : State),
    ∀ f ∈ [Instr.wMode, Instr.wTargetA, Instr.wTargetB, Instr.wTimeA, Instr.wTimeB, Instr.wNewData, Instr.wChecksum],
      ∃ t u, exec (f d') s = .next t ∧ exec (f d) s = .next u ∧ exec (f d) t = .next u ∧ exec (f d) u = .next u) ∧
  (∀ (a : Addr) (d d' : Byte) (s : State), ∃ t, exec (.r a d) s = .next t ∧ exec (.r a d') t = .next t) ∧
  (∀ (d d' : Byte) (s : State), ∃ t u,
    exec (.wCommit d) s = .next t ∧ exec (.wCommit d') t = .next u ∧ u.cmd = .zero ∧ u.cmdFresh = true)

/-- 70_reset_and_hazards.md "Software-visible hazards", the sentence on the double commit: a second commit is Idle, and
any walk or calibration ends at the next tick, with the actuation off. -/
def Obligations.DoubleCommitEndsMotion : Prop :=
  ∀ (d d' : Byte) (inp : TickIn) (s : State), ∃ t u v,
    exec (.wCommit d) s = .next t ∧ exec (.wCommit d') t = .next u ∧ exec (.tick inp) u = .next v ∧
    v.cmd = .zero ∧ v.prof.active = false ∧ v.cal.flag = false ∧ v.SafeState ∧
    (s.cal.flag = true → v.gainsP = s.savedP ∧ v.gainsC = s.savedC)

/-! The tick -/

/-- R130, R132, R140: a tick samples and tracks, reads the command, runs the exit checks, dispatches on CMD.mode and
publishes: the mode branch is the meaning of the instruction that the mode byte decodes to. -/
def Obligations.TickRunsItsPhases : Prop :=
  ∀ (inp : TickIn) (s : State),
    let raw := inp.enc.toNat % s.params.ppr
    let read : State :=
      { s with
        tickIn := inp
        out := { act := .disable, encReset := false, hallReset := false }
        lastEnc := BitVec.ofNat 16 raw
        lastCur := BitVec.ofNat 16 (min inp.cur.toNat 32767)
        trk :=
          { abs := BitVec.ofInt 16
              (((s.trk.abs.toNat : Int) + smod ((raw : Int) - (s.trk.prevRaw.toNat : Int)) s.params.ppr)
                % (s.params.ppr : Int))
            prevRaw := BitVec.ofNat 16 raw }
        tickFresh := s.cmdFresh
        cmdFresh := false }
    ∃ t,
      exec (decode (.mode s.cmd.mode)) (exitChecks s.cmd.mode read) = .next t ∧
      exec (.tick inp) s =
        .next
          { t with
            snap :=
              { cmd := t.cmd, lastFault := t.lastFault, faultCount := t.faultCount, calStep := t.cal.step
                calFlag := t.cal.flag, profActive := t.prof.active, drive := t.drive, abs := t.trk.abs
                lastKnown := t.lastKnown, posSp := t.posSp, curSp := t.curSp, duty := t.duty
                lastCur := t.lastCur, lastEnc := t.lastEnc, gainsP := t.gainsP, gainsC := t.gainsC } }

/-- R131, R172, R207: the exit checks abort a calibration that the mode does not own and discard a profile that it does
not own, and do nothing else. -/
def Obligations.ExitChecksEndForeignSequences : Prop :=
  ∀ (m : Byte) (s : State),
    let aborted : State :=
      { s with
        gainsP := s.savedP, gainsC := s.savedC
        cal :=
          { s.cal with
            flag := false, step := 0, dbActive := false, samples := List.replicate s.params.sampleN 0, scount := 0 }
        ploop := .zero, cloop := .zero }
    let a := if s.cal.flag = true ∧ m ≠ 1 then aborted else s
    exitChecks m s =
      if s.prof.active = true ∧ m ≠ 3 then { a with prof := { s.prof with active := false } } else a

/-- 10_state.md "The command mailbox", 41_dispatcher.md REVERT_MODE, and the model's own fields (log 1, 3, 4, 5, 8): of
the mailbox a tick writes only CMD.mode, which it keeps or sets to Idle or PanicStop; it clears CMD_FRESH, and leaves the
held transactions, the placed events, the byte last read and the parameters as they are. -/
def Obligations.TickFrame : Prop :=
  ∀ (inp : TickIn) (s : State), ∃ t,
    exec (.tick inp) s = .next t ∧
    t.pend = s.pend ∧ t.cmd = { s.cmd with mode := t.cmd.mode } ∧
    (t.cmd.mode = s.cmd.mode ∨ t.cmd.mode = 0 ∨ t.cmd.mode = 255) ∧
    t.cmdFresh = false ∧ t.resp = s.resp ∧ t.held = s.held ∧ t.events = s.events ∧ t.draws = s.draws ∧
    t.params = s.params ∧ t.tickIn = inp ∧ t.tickFresh = s.cmdFresh ∧
    (s.cmd.mode ≠ 3 → t.prof = { s.prof with active := false }) ∧
    (s.cmd.mode ≠ 1 → s.cal.flag = false → t.cal = s.cal ∧ t.gainsP = s.gainsP ∧ t.gainsC = s.gainsC) ∧
    (s.cmd.mode ≠ 1 → t.savedP = s.savedP ∧ t.savedC = s.savedC) ∧
    (s.cmd.mode ≠ 1 → s.cmd.mode ≠ 3 → t.lastKnown = s.lastKnown ∧ t.posSp = s.posSp)

/-- R85: after a tick a command-field address reads the command that tick published; what PEND holds changes no read. -/
def Obligations.CommandReadsBackAsPublished : Prop :=
  (∀ (inp : TickIn) (d : Byte) (s : State), ∃ t,
    exec (.tick inp) s = .next t ∧
    exec (.r 0x0000 d) t = .next { t with resp := some t.cmd.mode } ∧
    exec (.r 0x0001 d) t = .next { t with resp := some t.cmd.targetA } ∧
    exec (.r 0x0002 d) t = .next { t with resp := some t.cmd.targetB } ∧
    exec (.r 0x0003 d) t = .next { t with resp := some t.cmd.timeA } ∧
    exec (.r 0x0004 d) t = .next { t with resp := some t.cmd.timeB } ∧
    exec (.r 0x0005 d) t = .next { t with resp := some (if t.cmd.newDataFlag then 0x01 else 0x00) } ∧
    exec (.r 0x0006 d) t = .next { t with resp := some t.cmd.checksum }) ∧
  (∀ (a : Addr) (d : Byte) (s : State) (p c : MotionCommand), ∃ t,
    exec (.r a d) s = .next t ∧ exec (.r a d) { s with pend := p, cmd := c } = .next { t with pend := p, cmd := c })

/-- R133, R134, R139: Idle and PanicStop run SAFE_OFF and nothing else; on a tick they record no fault, hold the mode and
the setpoint, keep the tracker running, publish, and end any calibration or profile. -/
def Obligations.IdleAndPanicStopSwitchOff : Prop :=
  (∀ (s : State), ∀ i ∈ [Instr.modeIdle, Instr.modePanicStop],
    exec i s =
      .next
        { s with
          out := { s.out with act := .disable }, drive := .off, duty := 0, curSp := 0
          ploop := .zero, cloop := .zero }) ∧
  (∀ (inp : TickIn) (s : State), s.cmd.mode = 0 ∨ s.cmd.mode = 255 → ∃ t,
    exec (.tick inp) s = .next t ∧ t.SafeState ∧
    t.out = { act := .disable, encReset := false, hallReset := false } ∧
    t.cmd = s.cmd ∧ t.posSp = s.posSp ∧ t.lastFault = s.lastFault ∧ t.faultCount = s.faultCount ∧
    t.trk = trackRaw s.params t.lastEnc s.trk ∧ t.prof.active = false ∧ t.cal.flag = false ∧ t.snap = imageOf t)

/-- R138, R303: an unrecognized mode is switched off, recorded as code 2 and reverted to Idle in the same tick, so the
next tick records no fault. -/
def Obligations.UnrecognizedModeFaultsOnce : Prop :=
  (∀ (m : Byte) (s : State),
    exec (.modeUnrecognized m) s =
      .next
        { s with
          out := { s.out with act := .disable }, drive := .off, duty := 0, curSp := 0
          ploop := .zero, cloop := .zero
          lastFault := 2, faultCount := BitVec.ofNat 8 (min (s.faultCount.toNat + 1) 255)
          cmd := { s.cmd with mode := 0 } }) ∧
  (∀ (inp inp' : TickIn) (s : State),
    s.cmd.mode ≠ 0 → s.cmd.mode ≠ 1 → s.cmd.mode ≠ 3 → s.cmd.mode ≠ 255 → ∃ t u,
      exec (.tick inp) s = .next t ∧ t.SafeState ∧ t.cmd = { s.cmd with mode := 0 } ∧
      t.lastFault = 2 ∧ t.faultCount.toNat = min (s.faultCount.toNat + 1) 255 ∧
      exec (.tick inp') t = .next u ∧ u.SafeState ∧ u.lastFault = 2 ∧ u.faultCount = t.faultCount)

/-- R23: PEND is zero at reset, only the bus port writes it, and the tick engine never reads it: two states that differ
only in PEND run to states that differ only in PEND. -/
def Obligations.TickEngineNeverReadsPend : Prop :=
  (∀ p : Params,
    (State.resetWith p).pend =
      { mode := 0, targetA := 0, targetB := 0, timeA := 0, timeB := 0, newDataFlag := false, checksum := 0 }) ∧
  (∀ (s : State) (c : MotionCommand) (m : Byte) (inp : TickIn),
    ∀ i ∈ [Instr.tick inp, .modeIdle, .modeCalibrate, .modeWalkForward, .modePanicStop, .modeUnrecognized m], ∃ t,
      exec i s = .next t ∧ t.pend = s.pend ∧ exec i { s with pend := c } = .next { t with pend := c })

/-- 60_exceptions.md, the sentences "Nothing in this core is permitted to be fatal" and "Faults do not nest": every step
answers a next state and records at most one fault, with a code of R301; no step changes the parameters (log 1). -/
def Obligations.EveryStepGoesOnWithAtMostOneFault : Prop :=
  ∀ s : State, ∃ t,
    step s = .next t ∧ t.params = s.params ∧
    ((t.lastFault = s.lastFault ∧ t.faultCount = s.faultCount) ∨
      (t.faultCount.toNat = min (s.faultCount.toNat + 1) 255 ∧
        (t.lastFault = 1 ∨ t.lastFault = 2 ∨ t.lastFault = 3 ∨ t.lastFault = 4)))

/-- R48, R32: every tick sets exactly one act: Disable with DRIVE = OFF, or a sign-magnitude drive in the direction DRIVE
with the duty DUTY, which is at most DUTY_MAX. -/
def Obligations.EveryTickActuatesOnce : Prop :=
  ∀ (inp : TickIn) (s : State), s.params.dutyMax ≤ 65535 → ∃ t,
    exec (.tick inp) s = .next t ∧ t.duty.toNat ≤ s.params.dutyMax ∧
    ((t.out.act = .disable ∧ t.drive = .off ∧ t.duty = 0 ∧ t.curSp = 0) ∨
      (t.out.act = .drive .fwd t.duty .signMagnitude ∧ t.drive = .fwd) ∨
      (t.out.act = .drive .bwd t.duty .signMagnitude ∧ t.drive = .bwd))

/-! Calibration -/

/-- R163 (reached as R161 says): Enter saves both gain sets, loads the calibration gains, starts the sequence at step 1
holding the present position, with zeroed loops, and runs them with the calibration limit. -/
def Obligations.CalibrateEnters : Prop :=
  ∀ s : State, (s.cal.flag = false ∨ s.cal.step.toNat = 0 ∨ 6 ≤ s.cal.step.toNat) →
    exec .modeCalibrate s =
      .next (runLoops s.params.calPosOutLimit
        { s with
          savedP := s.gainsP, savedC := s.gainsC
          gainsP := s.params.calGainsP, gainsC := s.params.calGainsC
          cal :=
            { step := 1, flag := true, gateWin := BitVec.ofNat 32 (s.tickIn.now.toNat / 10), dbActive := false
              dbStart := 0, stepStart := s.tickIn.now, ref := 0
              samples := List.replicate s.params.sampleN 0, scount := 0 }
          posSp := s.trk.abs
          ploop := .zero, cloop := .zero })

/-- R164: what a sensor timeout leaves, from a state `s` and its calibration record `c`. -/
def Sys2Proof.Claims.timedOutState (s : State) (c : Calibration) : State :=
  { s with
    gainsP := s.savedP, gainsC := s.savedC
    cal :=
      { c with
        flag := false, step := 0, dbActive := false, samples := List.replicate s.params.sampleN 0, scount := 0 }
    out := { s.out with act := .disable }, drive := .off, duty := 0, curSp := 0, ploop := .zero, cloop := .zero
    lastFault := 4, faultCount := BitVec.ofNat 8 (min (s.faultCount.toNat + 1) 255)
    cmd := { s.cmd with mode := 255 } }

/-- R164: the sensor-wait timeout, on the elapsed time mod 2^32. -/
def Sys2Proof.Claims.timedOut (s : State) : Prop :=
  s.params.calStepTimeoutMs ≠ 0 ∧
    (s.params.calStepTimeoutMs : Int) ≤ ((s.tickIn.now.toNat : Int) - s.cal.stepStart.toNat) % 2 ^ 32

/-- R164, R165, R166, R167: the probe opens, keeps or drops its debounce window; a debounced hard stop wins over a
timeout; otherwise the setpoint descends one pulse in each new 10 ms window and the loops run. -/
def Obligations.CalibrateProbesForTheStop : Prop :=
  ∀ s : State, s.cal.flag = true → s.cal.step = 1 →
    let now := s.tickIn.now
    let exceeds := s.params.calIThresh < s.lastCur.toNat
    let c : Calibration :=
      if exceeds then (if s.cal.dbActive = true then s.cal else { s.cal with dbActive := true, dbStart := now })
      else { s.cal with dbActive := false }
    let stop := exceeds ∧ (s.params.debounceMs : Int) ≤ ((now.toNat : Int) - c.dbStart.toNat) % 2 ^ 32
    let window := now.toNat / 10
    (stop →
      exec .modeCalibrate s =
        .next
          { s with
            out := { s.out with act := .disable, encReset := true }, drive := .off, duty := 0, curSp := 0
            ploop := .zero, cloop := .zero, trk := { abs := 0, prevRaw := 0 }, posSp := 0
            cal :=
              { c with
                ref := 0, dbActive := false, step := 2, stepStart := now, gateWin := BitVec.ofNat 32 window } }) ∧
    (¬stop → timedOut s → exec .modeCalibrate s = .next (timedOutState s c)) ∧
    (¬stop → ¬timedOut s → window ≠ s.cal.gateWin.toNat →
      exec .modeCalibrate s =
        .next (runLoops s.params.calPosOutLimit
          { s with
            cal := { c with gateWin := BitVec.ofNat 32 window }
            posSp := BitVec.ofInt 16 (((s.posSp.toNat : Int) - 1) % (s.params.ppr : Int)) })) ∧
    (¬stop → ¬timedOut s → window = s.cal.gateWin.toNat →
      exec .modeCalibrate s = .next (runLoops s.params.calPosOutLimit { s with cal := c }))

/-- R168: the sweep moves on when the setpoint is at the target; otherwise it climbs one pulse and takes one sample, while
the buffer has room, in each new 10 ms window; the loops run on every tick. -/
def Obligations.CalibrateSweeps : Prop :=
  ∀ s : State, s.cal.flag = true → s.cal.step = 2 →
    let now := s.tickIn.now
    let target := BitVec.ofInt 16 (((s.cal.ref.toNat : Int) + s.params.searchOffset) % (s.params.ppr : Int))
    let window := now.toNat / 10
    let up := BitVec.ofInt 16 (((s.posSp.toNat : Int) + 1) % (s.params.ppr : Int))
    (s.posSp = target →
      exec .modeCalibrate s =
        .next (runLoops s.params.calPosOutLimit { s with cal := { s.cal with step := 3, stepStart := now } })) ∧
    (s.posSp ≠ target → window ≠ s.cal.gateWin.toNat → s.cal.scount.toNat < s.params.sampleN →
      exec .modeCalibrate s =
        .next (runLoops s.params.calPosOutLimit
          { s with
            posSp := up
            cal :=
              { s.cal with
                gateWin := BitVec.ofNat 32 window
                samples := s.cal.samples.set s.cal.scount.toNat s.tickIn.hallAdc
                scount := BitVec.ofNat 8 (s.cal.scount.toNat + 1) } })) ∧
    (s.posSp ≠ target → window ≠ s.cal.gateWin.toNat → s.params.sampleN ≤ s.cal.scount.toNat →
      exec .modeCalibrate s =
        .next (runLoops s.params.calPosOutLimit
          { s with posSp := up, cal := { s.cal with gateWin := BitVec.ofNat 32 window } })) ∧
    (s.posSp ≠ target → window = s.cal.gateWin.toNat →
      exec .modeCalibrate s = .next (runLoops s.params.calPosOutLimit s))

/-- R169: the detector reset lasts one tick: it emits hall_reset, holds POS_SP and goes to step 4. -/
def Obligations.CalibrateResetsDetector : Prop :=
  ∀ s : State, s.cal.flag = true → s.cal.step = 3 →
    exec .modeCalibrate s =
      .next (runLoops s.params.calPosOutLimit
        { s with
          out := { s.out with hallReset := true }
          cal := { s.cal with step := 4, stepStart := s.tickIn.now } })

/-- R164, R170: a detected edge zeroes the encoder and LAST_KNOWN, switches off and goes to step 5, and wins over a
timeout; otherwise the setpoint descends one pulse in each new 10 ms window and the loops run. -/
def Obligations.CalibrateSearchesForTheEdge : Prop :=
  ∀ s : State, s.cal.flag = true → s.cal.step = 4 →
    let now := s.tickIn.now
    let window := now.toNat / 10
    (s.tickIn.hallDet = true →
      exec .modeCalibrate s =
        .next
          { s with
            out := { s.out with act := .disable, encReset := true }, drive := .off, duty := 0, curSp := 0
            ploop := .zero, cloop := .zero, lastKnown := 0, posSp := 0
            cal := { s.cal with step := 5, stepStart := now } }) ∧
    (s.tickIn.hallDet = false → timedOut s → exec .modeCalibrate s = .next (timedOutState s s.cal)) ∧
    (s.tickIn.hallDet = false → ¬timedOut s → window ≠ s.cal.gateWin.toNat →
      exec .modeCalibrate s =
        .next (runLoops s.params.calPosOutLimit
          { s with
            cal := { s.cal with gateWin := BitVec.ofNat 32 window }
            posSp := BitVec.ofInt 16 (((s.posSp.toNat : Int) - 1) % (s.params.ppr : Int)) })) ∧
    (s.tickIn.hallDet = false → ¬timedOut s → window = s.cal.gateWin.toNat →
      exec .modeCalibrate s = .next (runLoops s.params.calPosOutLimit s))

/-- R171: Exit restores the saved gains, clears the flag, the buffer and the debounce, switches off and reverts to Idle;
CAL.step stays 5. -/
def Obligations.CalibrateExits : Prop :=
  ∀ s : State, s.cal.flag = true → s.cal.step = 5 →
    exec .modeCalibrate s =
      .next
        { s with
          gainsP := s.savedP, gainsC := s.savedC
          cal :=
            { s.cal with
              step := 5, flag := false, samples := List.replicate s.params.sampleN 0, scount := 0, dbActive := false }
          out := { s.out with act := .disable }, drive := .off, duty := 0, curSp := 0
          ploop := .zero, cloop := .zero, cmd := { s.cmd with mode := 0 } }

/-- 70_reset_and_hazards.md, the sentence "A calibration cannot be restarted by recommitting mode 1": in mode 1 a tick does
the same whatever the other fields of CMD, CMD_FRESH and PEND hold, so a recommit of mode 1 (which replaces CMD whole, sets
CMD_FRESH and zeroes PEND) changes nothing that the tick does; and in a running calibration that tick ends the sequence,
stays in its step without beginning it again, or goes on to the next step, with the saved gains kept. -/
def Obligations.RecommitDoesNotRestartCalibration : Prop :=
  ∀ (inp : TickIn) (s : State), s.cmd.mode = 1 → ∃ t,
    exec (.tick inp) s = .next t ∧
    (∀ (c p : MotionCommand) (f : Bool), c.mode = 1 →
      exec (.tick inp) { s with cmd := c, cmdFresh := f, pend := p } =
        .next
          { t with
            pend := p, tickFresh := f, cmd := { c with mode := t.cmd.mode }
            snap := { t.snap with cmd := { c with mode := t.cmd.mode } } }) ∧
    (∀ d : Byte, s.pend.mode = 1 → ∃ u,
      exec (.wCommit d) s = .next u ∧
      exec (.tick inp) u =
        .next
          { t with
            pend := .zero, tickFresh := true, cmd := { s.pend with mode := t.cmd.mode }
            snap := { t.snap with cmd := { s.pend with mode := t.cmd.mode } } }) ∧
    (s.cal.flag = true → 1 ≤ s.cal.step.toNat → s.cal.step.toNat ≤ 5 →
      t.savedP = s.savedP ∧ t.savedC = s.savedC ∧
      (t.cal.flag = false ∨
        (t.cal.flag = true ∧ t.cal.step = s.cal.step ∧ t.cal.stepStart = s.cal.stepStart) ∨
        (t.cal.flag = true ∧ t.cal.step.toNat = s.cal.step.toNat + 1)))

/-- 10_state.md "Gains": an instruction leaves the gains, loads the calibration gains, or restores the saved gains; the
saved gains are written only at calibration entry, with the gains then active. -/
def Obligations.GainsMoveOnlyWithCalibration : Prop :=
  ∀ (i : Instr) (s : State), (s.cal.flag = true → 1 ≤ s.cal.step.toNat ∧ s.cal.step.toNat ≤ 5) → ∃ t,
    exec i s = .next t ∧
    ((t.gainsP = s.gainsP ∧ t.gainsC = s.gainsC ∧ t.savedP = s.savedP ∧ t.savedC = s.savedC) ∨
      (t.gainsP = s.savedP ∧ t.gainsC = s.savedC ∧ t.savedP = s.savedP ∧ t.savedC = s.savedC ∧
        s.cal.flag = true ∧ t.cal.flag = false) ∨
      (t.gainsP = s.params.calGainsP ∧ t.gainsC = s.params.calGainsC ∧ t.savedP = s.gainsP ∧ t.savedC = s.gainsC ∧
        s.cal.flag = false ∧ t.cal.flag = true ∧
        (i = .modeCalibrate ∨ ∃ inp, i = .tick inp ∧ s.cmd.mode = 1)))

/-- 42_calibration.md "Consequences" and 92_eei_decisions.md D12: every step keeps the calibration gains active exactly
while a calibration is in progress, and the normal gains otherwise. -/
def Obligations.NormalGainsOutsideCalibration : Prop :=
  ∀ s t : State, s.Inv → s.GoodGains → step s = .next t → t.GoodGains

/-- 42_calibration.md R168 and 93_implementation_defined.md row 18: the sample buffer and the hall ADC have no effect on
control: a tick that differs only in them leaves states that differ only in them. -/
def Obligations.SamplesNeverSteer : Prop :=
  ∀ (inp : TickIn) (adc : Half) (l : List Half) (s : State), ∃ (t : State) (l' : List Half),
    exec (.tick inp) s = .next t ∧
    exec (.tick { inp with hallAdc := adc }) { s with cal := { s.cal with samples := l } } =
      .next { t with tickIn := { inp with hallAdc := adc }, cal := { t.cal with samples := l' } }

/-! Walk -/

/-- R203, R304: a walk tick that would derive a profile with time16 <= 2 * T_AD is rejected with code 3: switched off,
no active profile, Idle. -/
def Obligations.WalkRejectsDegenerateCommand : Prop :=
  ∀ s : State, (s.tickFresh = true ∨ s.prof.active = false) →
    256 * s.cmd.timeA.toNat + s.cmd.timeB.toNat ≤ 2 * s.params.tAd →
    exec .modeWalkForward s =
      .next
        { s with
          prof := { s.prof with active := false }
          out := { s.out with act := .disable }, drive := .off, duty := 0, curSp := 0
          ploop := .zero, cloop := .zero
          lastFault := 3, faultCount := BitVec.ofNat 8 (min (s.faultCount.toNat + 1) 255)
          cmd := { s.cmd with mode := 0 } }

/-- R201: a walk tick that derives a profile takes the forward modulo distance from the present position to the target
reduced mod PPR, the duration time16 and the ramp T_AD, starts the loops from zero, and holds the start position. -/
def Obligations.WalkDerivesProfile : Prop :=
  ∀ s : State, (s.tickFresh = true ∨ s.prof.active = false) →
    2 * s.params.tAd < 256 * s.cmd.timeA.toNat + s.cmd.timeB.toNat →
    exec .modeWalkForward s =
      .next (runLoops s.params.posOutLimit
        { s with
          prof :=
            { active := true
              startPos := s.trk.abs
              startTime := s.tickIn.now
              dist := BitVec.ofInt 16
                ((((256 * s.cmd.targetA.toNat + s.cmd.targetB.toNat) % s.params.ppr : Nat) - (s.trk.abs.toNat : Int))
                  % (s.params.ppr : Int))
              dur := BitVec.ofNat 16 (256 * s.cmd.timeA.toNat + s.cmd.timeB.toNat)
              tad := BitVec.ofNat 16 s.params.tAd }
          ploop := .zero, cloop := .zero
          posSp := BitVec.ofNat 16 (s.trk.abs.toNat % s.params.ppr) })

/-- R204, R206: a walk tick in progress completes when the wrap-safe elapsed time has reached the duration, latching
LAST_KNOWN from the encoder reading, and otherwise follows the profile with the loops at POS_OUT_LIMIT. -/
def Obligations.WalkFollowsAndCompletes : Prop :=
  ∀ s : State, s.tickFresh = false → s.prof.active = true →
    let t : Int := ((s.tickIn.now.toNat : Int) - s.prof.startTime.toNat) % 2 ^ 32
    ((s.prof.dur.toNat : Int) ≤ t →
      exec .modeWalkForward s =
        .next
          { s with
            lastKnown := s.lastEnc
            posSp := BitVec.ofInt 16 (((s.prof.startPos.toNat : Int) + s.prof.dist.toNat) % (s.params.ppr : Int))
            prof := { s.prof with active := false }
            out := { s.out with act := .disable }, drive := .off, duty := 0, curSp := 0
            ploop := .zero, cloop := .zero, cmd := { s.cmd with mode := 0 } }) ∧
    (t < s.prof.dur.toNat →
      exec .modeWalkForward s =
        .next (runLoops s.params.posOutLimit
          { s with
            posSp := BitVec.ofInt 16
              (((s.prof.startPos.toNat : Int) +
                  profileS s.prof.dist.toNat s.prof.dur.toNat s.prof.tad.toNat t)
                % (s.params.ppr : Int)) }))

/-- R205: PROFILE_S is the floor of the exact trapezoid: quadratic up to A, linear up to T - A, mirrored after. At both
boundaries the exact curve is continuous in position and in velocity, which is the cruise velocity v = D / (T - A); the
acceleration is v / A. With A = 0 only the cruise is reached. -/
def Obligations.ProfileIsFloorOfTrapezoid : Prop :=
  ∀ D T A : Nat, 2 * A < T →
    let up : ℚ → ℚ := fun t => D * t * t / (2 * A * (T - A))
    let cruise : ℚ → ℚ := fun t => D * (2 * t - A) / (2 * (T - A))
    let down : ℚ → ℚ := fun t => D * (2 * A * (T - A) - (T - t) * (T - t)) / (2 * A * (T - A))
    let v : ℚ := D / (T - A)
    (∀ t : Nat, t < T →
      profileS D T A t = if t < A then ⌊up t⌋ else if t ≤ T - A then ⌊cruise t⌋ else ⌊down t⌋) ∧
    (∀ t h : ℚ, cruise (t + h) = cruise t + v * h) ∧
    (0 < A → ∀ h : ℚ,
      up (A + h) = cruise A + v * h + v / A * h * h / 2 ∧
      down (T - A + h) = cruise (T - A) + v * h - v / A * h * h / 2) ∧
    (A = 0 → ∀ t : Nat, t < T → profileS D T A t = fdiv (D * t) T)

/-- 43_profile.md "Properties": for a profile that is not degenerate PROFILE_S, the distance covered, is 0 at time 0, never
decreases and never leaves [0, D]. -/
def Obligations.ProfileIsMonotoneAndBounded : Prop :=
  ∀ D T A : Int, 0 ≤ D → 0 ≤ A → 2 * A < T →
    profileS D T A 0 = 0 ∧
    (∀ t, 0 ≤ t → t < T → 0 ≤ profileS D T A t ∧ profileS D T A t ≤ D) ∧
    (∀ t u, 0 ≤ t → t ≤ u → u < T → profileS D T A t ≤ profileS D T A u)

/-! Controllers -/

/-- R232: one PID step, with its registers read back: exact terms, the floor of the shifted sum, clamping, and the
conditional recomputation of the integral. -/
def Obligations.PidStepComputesTheRule : Prop :=
  ∀ (nD : Nat) (l : LoopState) (g : Gains) (e lo hi : Int) (shift : Nat),
    1 ≤ nD → nD ≤ 255 → -2 ^ 31 ≤ e → e < 2 ^ 31 →
    let kp : Int := g.kp.toNat
    let ki : Int := g.ki.toNat
    let kd : Int := g.kd.toNat
    let i := sat (l.integ.toInt + e)
    let d := if l.dcount.toNat = 0 then sat (e - l.errPrev.toInt) else l.deriv.toInt
    let u := ⌊((kp * e + ki * i + kd * d : Int) : ℚ) / 2 ^ shift⌋
    let r := pidStep nD l g e lo hi shift
    r.1.err.toInt = e ∧
    r.1.errPrev.toInt = (if l.dcount.toNat = 0 then e else l.errPrev.toInt) ∧
    r.1.deriv.toInt = d ∧
    r.1.dcount.toNat = (l.dcount.toNat + 1) % nD ∧
    (hi < u →
      r.2 = hi ∧
      r.1.integ.toInt = if 0 < ki then min i (sat ⌊((hi * 2 ^ shift - kp * e : Int) : ℚ) / ki⌋) else i) ∧
    (u ≤ hi → u < lo →
      r.2 = lo ∧
      r.1.integ.toInt = if 0 < ki then max i (sat ⌈((lo * 2 ^ shift - kp * e : Int) : ℚ) / ki⌉) else i) ∧
    (u ≤ hi → lo ≤ u → r.2 = u ∧ r.1.integ.toInt = i)

/-- 44_controllers.md "Anti-windup guarantees", within the bounds that file derives: after a saturation with ki > 0 the new
integral keeps kp * e + ki * I on the allowed side of the limit, with no tolerance. -/
def Obligations.SaturationStopsWindup : Prop :=
  ∀ (nD : Nat) (l : LoopState) (g : Gains) (e lo hi : Int) (shift : Nat),
    0 < g.ki.toNat → -32767 ≤ e → e ≤ 32767 → -65535 ≤ lo → lo ≤ 0 → 0 ≤ hi → hi ≤ 65535 → shift ≤ 16 →
    let kp : Int := g.kp.toNat
    let ki : Int := g.ki.toNat
    let kd : Int := g.kd.toNat
    let i := sat (l.integ.toInt + e)
    let d := if l.dcount.toNat = 0 then sat (e - l.errPrev.toInt) else l.deriv.toInt
    let u := (kp * e + ki * i + kd * d) / 2 ^ shift
    let r := pidStep nD l g e lo hi shift
    (hi < u → kp * e + ki * r.1.integ.toInt ≤ hi * 2 ^ shift) ∧
    (u < lo → lo * 2 ^ shift ≤ kp * e + ki * r.1.integ.toInt)

/-- R233: counted from a zeroing, the derivative is sampled on every N_D-th run, as the difference of the errors at this
sample and at the one before (0 before the first), and held in between. -/
def Obligations.DerivativeIsDecimated : Prop :=
  ∀ (nD : Nat) (g : Gains) (lo hi : Int) (shift : Nat) (e : Nat → Int),
    1 ≤ nD → nD ≤ 255 → (∀ k, -32767 ≤ e k ∧ e k ≤ 32767) →
    (loopRuns nD g lo hi shift e 0 = .zero) ∧
    ∀ k,
      (loopRuns nD g lo hi shift e (k + 1)).dcount.toNat = (k + 1) % nD ∧
      (loopRuns nD g lo hi shift e (k + 1)).errPrev.toInt = e (nD * (k / nD)) ∧
      (loopRuns nD g lo hi shift e (k + 1)).deriv.toInt =
        e (nD * (k / nD)) - (if k / nD = 0 then 0 else e (nD * (k / nD - 1)))

/-- R231, R234, R235: one run of the cascade: the position error mod one rotation into the position loop, its output as the
current setpoint, its magnitude less the measured current into the current loop, whose output is the duty. -/
def Obligations.CascadeDrivesTheBridge : Prop :=
  ∀ (limit : Nat) (s : State),
    let r := ((s.posSp.toNat : Int) - s.trk.abs.toNat) % (s.params.ppr : Int)
    let ep := if (s.params.ppr : Int) ≤ 2 * r then r - s.params.ppr else r
    let pos := pidStep s.params.nD s.ploop s.gainsP ep (-(limit : Int)) limit s.params.sP
    let ec := |pos.2| - (s.lastCur.toNat : Int)
    let cur := pidStep s.params.nD s.cloop s.gainsC ec 0 s.params.dutyMax s.params.sC
    runLoops limit s =
      { s with
        ploop := pos.1, cloop := cur.1
        curSp := BitVec.ofInt 16 pos.2, duty := BitVec.ofInt 16 cur.2
        drive := if 0 ≤ pos.2 then .fwd else .bwd
        out :=
          { s.out with
            act := .drive (if 0 ≤ pos.2 then .fwd else .bwd) (BitVec.ofInt 16 cur.2) .signMagnitude } } ∧
    (s.params.Valid → -(s.params.ppr / 2 : Int) ≤ ep ∧ ep ≤ (s.params.ppr + 1) / 2 - 1) ∧
    (limit ≤ 32767 → s.lastCur.toNat ≤ 32767 → -32767 ≤ ec ∧ ec ≤ 32767) ∧
    (limit ≤ 32767 → (BitVec.ofInt 16 pos.2 : Half).toInt = pos.2 ∧ -(limit : Int) ≤ pos.2 ∧ pos.2 ≤ limit) ∧
    (s.params.dutyMax ≤ 65535 → ((BitVec.ofInt 16 cur.2 : Half).toNat : Int) = cur.2 ∧ cur.2 ≤ s.params.dutyMax)

/-! Tracker -/

/-- R260: the tracker moves by the minimal signed delta of the encoder, normalised into [0, PPR), and remembers the
reading; so its residue moves as the encoder's does. -/
def Obligations.TrackerMovesByMinimalDelta : Prop :=
  ∀ (p : Params) (raw : Half) (t : Tracker), p.Valid →
    let t' := trackRaw p raw t
    t'.prevRaw = raw ∧ t'.abs.toNat < p.ppr ∧
    (∃ delta : Int,
      -(p.ppr : Int) ≤ 2 * delta ∧ 2 * delta < p.ppr ∧
      (p.ppr : Int) ∣ ((raw.toNat : Int) - t.prevRaw.toNat) - delta ∧
      (t'.abs.toNat : Int) = ((t.abs.toNat : Int) + delta) % p.ppr) ∧
    (p.ppr : Int) ∣ ((t'.abs.toNat : Int) - t.abs.toNat) - ((raw.toNat : Int) - t.prevRaw.toNat)

/-- R261, R262: the tracker is updated on every tick, whatever the mode; it is reset only by the hard stop at the end of
calibration step 1, in the tick that emits the encoder reset. -/
def Obligations.TrackerRunsInEveryTick : Prop :=
  ∀ (inp : TickIn) (s : State), ∃ t,
    exec (.tick inp) s = .next t ∧
    t.lastEnc = BitVec.ofNat 16 (inp.enc.toNat % s.params.ppr) ∧
    (t.trk = trackRaw s.params t.lastEnc s.trk ∨
      (t.trk = { abs := 0, prevRaw := 0 } ∧ t.out.encReset = true ∧ t.cal.step = 2 ∧
        s.cmd.mode = 1 ∧ s.cal.flag = true ∧ s.cal.step = 1))

/-! Reset, invariants, steps -/

/-- R340: a power-on reset, with any parameters, sets every state element of 10_state.md to its stated value. -/
def Obligations.ResetSetsEveryElement : Prop :=
  State.reset = State.resetWith State.reset.params ∧
  ∀ p : Params,
    let s := State.resetWith p
    let zero : MotionCommand :=
      { mode := 0, targetA := 0, targetB := 0, timeA := 0, timeB := 0, newDataFlag := false, checksum := 0 }
    let loop : LoopState := { err := 0, errPrev := 0, integ := 0, deriv := 0, dcount := 0 }
    s.params = p ∧ s.pend = zero ∧ s.cmd = zero ∧ s.cmdFresh = false ∧
    s.gainsP = p.normGainsP ∧ s.gainsC = p.normGainsC ∧ s.savedP = p.normGainsP ∧ s.savedC = p.normGainsC ∧
    s.ploop = loop ∧ s.cloop = loop ∧ s.trk = { abs := 0, prevRaw := 0 } ∧
    s.prof = { active := false, startPos := 0, startTime := 0, dist := 0, dur := 0, tad := 0 } ∧
    s.cal =
      { step := 0, flag := false, gateWin := 0, dbActive := false, dbStart := 0, stepStart := 0, ref := 0
        samples := List.replicate p.sampleN 0, scount := 0 } ∧
    s.posSp = 0 ∧ s.curSp = 0 ∧ s.duty = 0 ∧ s.drive = .off ∧ s.lastKnown = 0 ∧
    s.lastFault = 0 ∧ s.faultCount = 0 ∧ s.lastEnc = 0 ∧ s.lastCur = 0 ∧ s.snap = imageOf s ∧ s.held = []

/-- The reset state, for every parameter record that meets R8 and so for this implementation's (log 1), meets both
invariants. (OUT at reset is the model's own, log 6.) -/
def Obligations.ResetMeetsInvariants : Prop :=
  (∀ p : Params, p.Valid → (State.resetWith p).Inv ∧ (State.resetWith p).GoodGains) ∧
  State.reset.Inv ∧ State.reset.GoodGains

/-- 10_state.md, the list headed "Invariants that every step preserves": from every state that meets the invariant, every
step (a bus transaction or a tick, whatever its inputs) leads to a state that meets it. -/
def Obligations.EveryStepKeepsInvariant : Prop := ∀ s t : State, s.Inv → step s = .next t → t.Inv

/-- The same for one instruction, tick and mode branch alike. -/
def Obligations.EveryInstructionKeepsInvariant : Prop :=
  ∀ (i : Instr) (s : State), s.Inv → ∃ t, exec i s = .next t ∧ t.Inv

/-- A step runs the instruction that the next encoded input decodes to: a held transaction, else a placed event, else a
free draw (the order is 60_exceptions.md "Event sources"; the placing is the model's own, log 3, 4, 5). -/
def Obligations.StepRunsTheDecodedInstruction : Prop :=
  (∀ (s : State) (w : BusWord) (ws : List BusWord), s.held = w :: ws →
    step s = exec (decode (.bus w)) { s with held := ws }) ∧
  (∀ (s : State) (w : BusWord) (es : List Event), s.held = [] → s.events = .bus w :: es →
    step s = exec (decode (.bus w)) { s with events := es }) ∧
  (∀ (s : State) (inp : TickIn) (ws : List BusWord) (es : List Event), s.held = [] → s.events = .tick inp ws :: es →
    step s = exec (.tick inp) { s with events := es, held := ws }) ∧
  (∀ s : State, s.held = [] → s.events = [] →
    step s = step { s with events := [Config.event s.draws], draws := s.draws + 1 })

/-- 60_exceptions.md "Event sources", 00_scope.md "Agents" and 20_memory.md "Ordering" item (a): the transactions `ws` that
arrive during a placed tick are held through it and run right after it, before anything else, in the order of their issue:
after the tick and `k` further steps, the first `k` of them have been executed, one each step, and the others are held; after
`ws.length` steps all have run. That they stand in a list is the model's own (log 5). -/
def Obligations.HeldTransactionsRunAfterTheTick : Prop :=
  ∀ (s : State) (inp : TickIn) (ws : List BusWord) (es : List Event), s.held = [] → s.events = .tick inp ws :: es →
    ∃ t,
      step s = .next t ∧ exec (.tick inp) { s with events := es, held := ws } = .next t ∧ t.held = ws ∧ t.events = es ∧
      ∀ k, k ≤ ws.length → ∃ u,
        execAll ((ws.take k).map fun w => decode (.bus w)) { t with held := [] } u ∧ u.held = [] ∧ u.events = es ∧
        steps k t { u with held := ws.drop k }

/-- The model's own placing of one instruction (log 11): the very next step runs it. -/
def Obligations.PlacedWordRunsNext : Prop :=
  (∀ (s : State) (w : Nat), w < 2 ^ 25 → step (s.withFetchWord 32 w) = exec (decode (.bus (BitVec.ofNat 25 w))) s) ∧
  (∀ (s : State) (b : Nat), b < 2 ^ 8 →
    step (s.withFetchWord 8 b) =
      exec (.tick s.tickIn) { s with cmd := { s.cmd with mode := BitVec.ofNat 8 b }, held := [] })
end

