-- ==== Sys2Proof/Laws/Arith.lean ====
section
/-! SUPPORT. What the integer operators of 00_scope.md R11 and the narrowings to a register give. -/

namespace Sys2Proof.Machine

/-- smod(a, m) is in [-floor(m/2), ceil(m/2) - 1], written without a division. -/
theorem smod_range (a : Int) {m : Int} (hm : 0 < m) : -m ≤ 2 * smod a m ∧ 2 * smod a m < m := by
  have h0 := Int.emod_nonneg a (ne_of_gt hm)
  have h1 := Int.emod_lt_of_pos a hm
  unfold smod
  dsimp only
  split <;> omega

/-- smod(a, m) has the residue of a. -/
theorem smod_emod (a m : Int) : smod a m % m = a % m := by
  unfold smod
  dsimp only
  split
  · rw [Int.sub_emod_right, Int.emod_emod_of_dvd _ (dvd_refl m)]
  · exact Int.emod_emod_of_dvd _ (dvd_refl m)

/-- The difference of a and smod(a, m) is a multiple of m. -/
theorem smod_dvd (a m : Int) : m ∣ a - smod a m :=
  Int.dvd_of_emod_eq_zero (Int.emod_eq_emod_iff_emod_sub_eq_zero.mp (smod_emod a m).symm)

theorem sat32_range (v : Int) : -2 ^ 31 ≤ sat32 v ∧ sat32 v ≤ 2 ^ 31 - 1 := by
  unfold sat32
  omega

theorem sat32_of_range {v : Int} (h : -2 ^ 31 ≤ v) (h' : v ≤ 2 ^ 31 - 1) : sat32 v = v := by
  unfold sat32
  omega

/-- floor(a / b) is the largest q with q * b ≤ a. -/
theorem le_fdiv_iff {a b q : Int} (hb : 0 < b) : q ≤ fdiv a b ↔ q * b ≤ a := Int.le_ediv_iff_mul_le hb

/-- ceil(a / b) is the smallest q with a ≤ q * b. -/
theorem cdiv_le_iff {a b q : Int} (hb : 0 < b) : cdiv a b ≤ q ↔ a ≤ q * b := by
  unfold cdiv
  have h := Int.le_ediv_iff_mul_le (a := -q) (b := -a) hb
  rw [Int.neg_mul] at h
  omega

theorem fdiv_mul_le (a : Int) {b : Int} (hb : 0 < b) : fdiv a b * b ≤ a := (le_fdiv_iff hb).mp le_rfl

theorem le_cdiv_mul (a : Int) {b : Int} (hb : 0 < b) : a ≤ cdiv a b * b := (cdiv_le_iff hb).mp le_rfl

/-- floor division keeps the order. -/
theorem fdiv_mono {a a' b : Int} (hb : 0 < b) (h : a ≤ a') : fdiv a b ≤ fdiv a' b :=
  Int.ediv_le_ediv hb h

/-- A signed 32-bit register holds every value of its width. -/
theorem toInt_ofInt32 {v : Int} (h : -2 ^ 31 ≤ v) (h' : v ≤ 2 ^ 31 - 1) : (BitVec.ofInt 32 v).toInt = v := by
  rw [BitVec.toInt_ofInt, Int.bmod_eq_of_le] <;> omega

/-- A signed 16-bit register holds every value of its width. -/
theorem toInt_ofInt16 {v : Int} (h : -2 ^ 15 ≤ v) (h' : v ≤ 2 ^ 15 - 1) : (BitVec.ofInt 16 v).toInt = v := by
  rw [BitVec.toInt_ofInt, Int.bmod_eq_of_le] <;> omega

/-- An unsigned 16-bit register holds every value of its width. -/
theorem toNat_ofInt16 {v : Int} (h : 0 ≤ v) (h' : v < 65536) : ((BitVec.ofInt 16 v).toNat : Int) = v := by
  rw [BitVec.toNat_ofInt]
  omega

/-- A reduced position holds exactly the residue mod PPR. -/
theorem toNat_position {p : Params} (h0 : 0 < p.ppr) (h1 : p.ppr ≤ 32768) (x : Int) :
    ((position p x).toNat : Int) = x % (p.ppr : Int) := by
  have hl := Int.emod_nonneg x (b := (p.ppr : Int)) (by omega)
  have hu := Int.emod_lt_of_pos x (b := (p.ppr : Int)) (by omega)
  exact toNat_ofInt16 hl (by omega)

/-- A reduced position is in [0, PPR) (R9). -/
theorem position_lt {p : Params} (h0 : 0 < p.ppr) (h1 : p.ppr ≤ 32768) (x : Int) : (position p x).toNat < p.ppr := by
  have h := toNat_position h0 h1 x
  have hu := Int.emod_lt_of_pos x (b := (p.ppr : Int)) (by omega)
  omega

/-- LAST_ENC is in [0, PPR) (R35, R37). -/
theorem sampledEnc_lt {p : Params} (h0 : 0 < p.ppr) (h1 : p.ppr ≤ 32768) (inp : TickIn) :
    (sampledEnc p inp).toNat < p.ppr := by
  have h := Nat.mod_lt inp.enc.toNat h0
  unfold sampledEnc
  rw [BitVec.toNat_ofNat, Nat.mod_eq_of_lt] <;> omega

/-- LAST_CUR is at most 32767 (R35). -/
theorem sampledCur_le (inp : TickIn) : (sampledCur inp).toNat ≤ 32767 := by
  unfold sampledCur
  rw [BitVec.toNat_ofNat]
  omega

/-- The elapsed time is the wrap-safe difference (R204, R320). -/
theorem elapsed_eq (now ref : Word) : (elapsed now ref : Int) = ((now.toNat : Int) - ref.toNat) % 2 ^ 32 := by
  unfold elapsed
  rw [BitVec.toNat_sub]
  omega

end Sys2Proof.Machine
end

