-- ==== Sys2Proof/Laws/Config.lean ====
section
/-! SUPPORT. The parameters: what `Params.bounded` reaches, and that every predicate on commands is a `Validator`. -/

namespace Sys2Proof

/-- Every bounded record meets the constraints of R8. -/
theorem Params.bounded_valid (p : Params) : p.bounded.Valid where
  ppr := by simp only [Params.bounded, boundNat]; omega
  tAd := by simp only [Params.bounded, boundNat]; omega
  sP := by simp only [Params.bounded, boundNat]; omega
  sC := by simp only [Params.bounded, boundNat]; omega
  posOutLimit := by simp only [Params.bounded, boundNat]; omega
  calPosOutLimit := by simp only [Params.bounded, boundNat]; omega
  dutyMax := by simp only [Params.bounded, boundNat]; omega
  nD := by simp only [Params.bounded, boundNat]; omega
  calIThresh := by simp only [Params.bounded, boundNat]; omega
  debounceMs := by simp only [Params.bounded, boundNat]; omega
  searchOffset := by simp only [Params.bounded, boundNat]; omega
  hallSensorIndex := by simp only [Params.bounded, boundNat]; omega
  hallAdcChannel := by simp only [Params.bounded, boundNat]; omega
  sampleN := by simp only [Params.bounded, boundNat]; omega
  calStepTimeoutMs := by simp only [Params.bounded, boundNat]; omega

theorem boundNat_of_mem {lo hi x : Nat} (h : lo ≤ x) (h' : x ≤ hi) : boundNat lo hi x = x := by
  unfold boundNat
  omega

/-- Every record that meets R8 is a bounded record: `Config.params` leaves nothing out. -/
theorem Params.bounded_of_valid {p : Params} (h : p.Valid) : p.bounded = p := by
  have h1 := boundNat_of_mem h.ppr.1 h.ppr.2
  have h2 := boundNat_of_mem h.posOutLimit.1 h.posOutLimit.2
  unfold Params.bounded
  dsimp only
  rw [h1, h2, boundNat_of_mem h.calPosOutLimit.1 h.calPosOutLimit.2, boundNat_of_mem h.dutyMax.1 h.dutyMax.2,
    boundNat_of_mem h.nD.1 h.nD.2, boundNat_of_mem h.debounceMs.1 h.debounceMs.2,
    boundNat_of_mem h.searchOffset.1 h.searchOffset.2, boundNat_of_mem (Nat.zero_le _) h.tAd,
    boundNat_of_mem (Nat.zero_le _) h.sP, boundNat_of_mem (Nat.zero_le _) h.sC,
    boundNat_of_mem (Nat.zero_le _) h.calIThresh, boundNat_of_mem (Nat.zero_le _) h.hallSensorIndex,
    boundNat_of_mem (Nat.zero_le _) h.hallAdcChannel, boundNat_of_mem (Nat.zero_le _) h.sampleN,
    boundNat_of_mem (Nat.zero_le _) h.calStepTimeoutMs]

/-- The parameters of the implementation meet R8. -/
theorem Config.params_valid : Config.params.Valid := Params.bounded_valid _

/-- The default VALIDATE is the constant true (R111). -/
@[simp] theorem Validator.default_accepts (c : MotionCommand) : Validator.default.accepts c = true := rfl

/-- The commands are finitely many. -/
theorem MotionCommand.finite : Finite MotionCommand := by
  let f : MotionCommand → Nat × Nat × Nat × Nat × Nat × Bool × Nat := fun c =>
    (c.mode.toNat, c.targetA.toNat, c.targetB.toNat, c.timeA.toNat, c.timeB.toNat, c.newDataFlag, c.checksum.toNat)
  have hf : Function.Injective f := by
    intro a b h
    cases a; cases b
    simp only [f, Prod.mk.injEq, BitVec.toNat_inj] at h
    simp [h]
  let bytes := Set.Iio 256
  have hb : (bytes : Set Nat).Finite := Set.finite_Iio 256
  have hr : (Set.range f).Finite := by
    apply Set.Finite.subset (hb.prod (hb.prod (hb.prod (hb.prod (hb.prod (Set.finite_univ.prod hb))))))
    rintro _ ⟨c, rfl⟩
    simp [f, bytes, Set.mem_prod, c.mode.isLt, c.targetA.isLt, c.targetB.isLt, c.timeA.isLt, c.timeB.isLt,
      c.checksum.isLt]
  exact Set.finite_univ_iff.mp (Set.Finite.of_finite_image (f := f) (by rwa [Set.image_univ]) hf.injOn)

/-- Every predicate on commands is the meaning of some `Validator`: VALIDATE as data leaves nothing out (R111). -/
theorem Validator.complete (v : MotionCommand → Bool) : ∃ w : Validator, ∀ c, w.accepts c = v c := by
  have hfin : Set.Finite {c | v c = true} := Set.Finite.subset (@Set.finite_univ _ MotionCommand.finite) (Set.subset_univ _)
  refine ⟨.only hfin.toFinset.toList, fun c => ?_⟩
  cases h : v c <;> simp [Validator.accepts, h]

end Sys2Proof
end

