-- ==== Sys2Proof/Laws/State.lean ====
section
/-! SUPPORT. What each named update of State does to each field: one lemma per field, so that no proof unfolds a record
update. -/

namespace Sys2Proof.Machine

@[simp] theorem raiseFault_pend (f : FaultName) (s : State) : (raiseFault f s).pend = s.pend := rfl
@[simp] theorem raiseFault_cmd (f : FaultName) (s : State) : (raiseFault f s).cmd = s.cmd := rfl
@[simp] theorem raiseFault_cmdFresh (f : FaultName) (s : State) : (raiseFault f s).cmdFresh = s.cmdFresh := rfl
@[simp] theorem raiseFault_gainsP (f : FaultName) (s : State) : (raiseFault f s).gainsP = s.gainsP := rfl
@[simp] theorem raiseFault_gainsC (f : FaultName) (s : State) : (raiseFault f s).gainsC = s.gainsC := rfl
@[simp] theorem raiseFault_savedP (f : FaultName) (s : State) : (raiseFault f s).savedP = s.savedP := rfl
@[simp] theorem raiseFault_savedC (f : FaultName) (s : State) : (raiseFault f s).savedC = s.savedC := rfl
@[simp] theorem raiseFault_ploop (f : FaultName) (s : State) : (raiseFault f s).ploop = s.ploop := rfl
@[simp] theorem raiseFault_cloop (f : FaultName) (s : State) : (raiseFault f s).cloop = s.cloop := rfl
@[simp] theorem raiseFault_trk (f : FaultName) (s : State) : (raiseFault f s).trk = s.trk := rfl
@[simp] theorem raiseFault_prof (f : FaultName) (s : State) : (raiseFault f s).prof = s.prof := rfl
@[simp] theorem raiseFault_cal (f : FaultName) (s : State) : (raiseFault f s).cal = s.cal := rfl
@[simp] theorem raiseFault_posSp (f : FaultName) (s : State) : (raiseFault f s).posSp = s.posSp := rfl
@[simp] theorem raiseFault_curSp (f : FaultName) (s : State) : (raiseFault f s).curSp = s.curSp := rfl
@[simp] theorem raiseFault_duty (f : FaultName) (s : State) : (raiseFault f s).duty = s.duty := rfl
@[simp] theorem raiseFault_drive (f : FaultName) (s : State) : (raiseFault f s).drive = s.drive := rfl
@[simp] theorem raiseFault_lastKnown (f : FaultName) (s : State) : (raiseFault f s).lastKnown = s.lastKnown := rfl
@[simp] theorem raiseFault_lastFault (f : FaultName) (s : State) : (raiseFault f s).lastFault = faultCode f := rfl
@[simp] theorem raiseFault_faultCount (f : FaultName) (s : State) :
    (raiseFault f s).faultCount =
      bumpCount s.faultCount := rfl
@[simp] theorem raiseFault_lastEnc (f : FaultName) (s : State) : (raiseFault f s).lastEnc = s.lastEnc := rfl
@[simp] theorem raiseFault_lastCur (f : FaultName) (s : State) : (raiseFault f s).lastCur = s.lastCur := rfl
@[simp] theorem raiseFault_snap (f : FaultName) (s : State) : (raiseFault f s).snap = s.snap := rfl
@[simp] theorem raiseFault_held (f : FaultName) (s : State) : (raiseFault f s).held = s.held := rfl
@[simp] theorem raiseFault_tickIn (f : FaultName) (s : State) : (raiseFault f s).tickIn = s.tickIn := rfl
@[simp] theorem raiseFault_out (f : FaultName) (s : State) : (raiseFault f s).out = s.out := rfl
@[simp] theorem raiseFault_resp (f : FaultName) (s : State) : (raiseFault f s).resp = s.resp := rfl
@[simp] theorem raiseFault_tickFresh (f : FaultName) (s : State) : (raiseFault f s).tickFresh = s.tickFresh := rfl
@[simp] theorem raiseFault_params (f : FaultName) (s : State) : (raiseFault f s).params = s.params := rfl
@[simp] theorem raiseFault_events (f : FaultName) (s : State) : (raiseFault f s).events = s.events := rfl
@[simp] theorem raiseFault_draws (f : FaultName) (s : State) : (raiseFault f s).draws = s.draws := rfl

@[simp] theorem zeroLoops_pend (s : State) : (zeroLoops s).pend = s.pend := rfl
@[simp] theorem zeroLoops_cmd (s : State) : (zeroLoops s).cmd = s.cmd := rfl
@[simp] theorem zeroLoops_cmdFresh (s : State) : (zeroLoops s).cmdFresh = s.cmdFresh := rfl
@[simp] theorem zeroLoops_gainsP (s : State) : (zeroLoops s).gainsP = s.gainsP := rfl
@[simp] theorem zeroLoops_gainsC (s : State) : (zeroLoops s).gainsC = s.gainsC := rfl
@[simp] theorem zeroLoops_savedP (s : State) : (zeroLoops s).savedP = s.savedP := rfl
@[simp] theorem zeroLoops_savedC (s : State) : (zeroLoops s).savedC = s.savedC := rfl
@[simp] theorem zeroLoops_ploop (s : State) : (zeroLoops s).ploop = .zero := rfl
@[simp] theorem zeroLoops_cloop (s : State) : (zeroLoops s).cloop = .zero := rfl
@[simp] theorem zeroLoops_trk (s : State) : (zeroLoops s).trk = s.trk := rfl
@[simp] theorem zeroLoops_prof (s : State) : (zeroLoops s).prof = s.prof := rfl
@[simp] theorem zeroLoops_cal (s : State) : (zeroLoops s).cal = s.cal := rfl
@[simp] theorem zeroLoops_posSp (s : State) : (zeroLoops s).posSp = s.posSp := rfl
@[simp] theorem zeroLoops_curSp (s : State) : (zeroLoops s).curSp = s.curSp := rfl
@[simp] theorem zeroLoops_duty (s : State) : (zeroLoops s).duty = s.duty := rfl
@[simp] theorem zeroLoops_drive (s : State) : (zeroLoops s).drive = s.drive := rfl
@[simp] theorem zeroLoops_lastKnown (s : State) : (zeroLoops s).lastKnown = s.lastKnown := rfl
@[simp] theorem zeroLoops_lastFault (s : State) : (zeroLoops s).lastFault = s.lastFault := rfl
@[simp] theorem zeroLoops_faultCount (s : State) : (zeroLoops s).faultCount = s.faultCount := rfl
@[simp] theorem zeroLoops_lastEnc (s : State) : (zeroLoops s).lastEnc = s.lastEnc := rfl
@[simp] theorem zeroLoops_lastCur (s : State) : (zeroLoops s).lastCur = s.lastCur := rfl
@[simp] theorem zeroLoops_snap (s : State) : (zeroLoops s).snap = s.snap := rfl
@[simp] theorem zeroLoops_held (s : State) : (zeroLoops s).held = s.held := rfl
@[simp] theorem zeroLoops_tickIn (s : State) : (zeroLoops s).tickIn = s.tickIn := rfl
@[simp] theorem zeroLoops_out (s : State) : (zeroLoops s).out = s.out := rfl
@[simp] theorem zeroLoops_resp (s : State) : (zeroLoops s).resp = s.resp := rfl
@[simp] theorem zeroLoops_tickFresh (s : State) : (zeroLoops s).tickFresh = s.tickFresh := rfl
@[simp] theorem zeroLoops_params (s : State) : (zeroLoops s).params = s.params := rfl
@[simp] theorem zeroLoops_events (s : State) : (zeroLoops s).events = s.events := rfl
@[simp] theorem zeroLoops_draws (s : State) : (zeroLoops s).draws = s.draws := rfl

@[simp] theorem setAct_pend (a : Act) (s : State) : (setAct a s).pend = s.pend := rfl
@[simp] theorem setAct_cmd (a : Act) (s : State) : (setAct a s).cmd = s.cmd := rfl
@[simp] theorem setAct_cmdFresh (a : Act) (s : State) : (setAct a s).cmdFresh = s.cmdFresh := rfl
@[simp] theorem setAct_gainsP (a : Act) (s : State) : (setAct a s).gainsP = s.gainsP := rfl
@[simp] theorem setAct_gainsC (a : Act) (s : State) : (setAct a s).gainsC = s.gainsC := rfl
@[simp] theorem setAct_savedP (a : Act) (s : State) : (setAct a s).savedP = s.savedP := rfl
@[simp] theorem setAct_savedC (a : Act) (s : State) : (setAct a s).savedC = s.savedC := rfl
@[simp] theorem setAct_ploop (a : Act) (s : State) : (setAct a s).ploop = s.ploop := rfl
@[simp] theorem setAct_cloop (a : Act) (s : State) : (setAct a s).cloop = s.cloop := rfl
@[simp] theorem setAct_trk (a : Act) (s : State) : (setAct a s).trk = s.trk := rfl
@[simp] theorem setAct_prof (a : Act) (s : State) : (setAct a s).prof = s.prof := rfl
@[simp] theorem setAct_cal (a : Act) (s : State) : (setAct a s).cal = s.cal := rfl
@[simp] theorem setAct_posSp (a : Act) (s : State) : (setAct a s).posSp = s.posSp := rfl
@[simp] theorem setAct_curSp (a : Act) (s : State) : (setAct a s).curSp = s.curSp := rfl
@[simp] theorem setAct_duty (a : Act) (s : State) : (setAct a s).duty = s.duty := rfl
@[simp] theorem setAct_drive (a : Act) (s : State) : (setAct a s).drive = s.drive := rfl
@[simp] theorem setAct_lastKnown (a : Act) (s : State) : (setAct a s).lastKnown = s.lastKnown := rfl
@[simp] theorem setAct_lastFault (a : Act) (s : State) : (setAct a s).lastFault = s.lastFault := rfl
@[simp] theorem setAct_faultCount (a : Act) (s : State) : (setAct a s).faultCount = s.faultCount := rfl
@[simp] theorem setAct_lastEnc (a : Act) (s : State) : (setAct a s).lastEnc = s.lastEnc := rfl
@[simp] theorem setAct_lastCur (a : Act) (s : State) : (setAct a s).lastCur = s.lastCur := rfl
@[simp] theorem setAct_snap (a : Act) (s : State) : (setAct a s).snap = s.snap := rfl
@[simp] theorem setAct_held (a : Act) (s : State) : (setAct a s).held = s.held := rfl
@[simp] theorem setAct_tickIn (a : Act) (s : State) : (setAct a s).tickIn = s.tickIn := rfl
@[simp] theorem setAct_out (a : Act) (s : State) : (setAct a s).out = { s.out with act := a } := rfl
@[simp] theorem setAct_resp (a : Act) (s : State) : (setAct a s).resp = s.resp := rfl
@[simp] theorem setAct_tickFresh (a : Act) (s : State) : (setAct a s).tickFresh = s.tickFresh := rfl
@[simp] theorem setAct_params (a : Act) (s : State) : (setAct a s).params = s.params := rfl
@[simp] theorem setAct_events (a : Act) (s : State) : (setAct a s).events = s.events := rfl
@[simp] theorem setAct_draws (a : Act) (s : State) : (setAct a s).draws = s.draws := rfl

@[simp] theorem emitEncReset_pend (s : State) : (emitEncReset s).pend = s.pend := rfl
@[simp] theorem emitEncReset_cmd (s : State) : (emitEncReset s).cmd = s.cmd := rfl
@[simp] theorem emitEncReset_cmdFresh (s : State) : (emitEncReset s).cmdFresh = s.cmdFresh := rfl
@[simp] theorem emitEncReset_gainsP (s : State) : (emitEncReset s).gainsP = s.gainsP := rfl
@[simp] theorem emitEncReset_gainsC (s : State) : (emitEncReset s).gainsC = s.gainsC := rfl
@[simp] theorem emitEncReset_savedP (s : State) : (emitEncReset s).savedP = s.savedP := rfl
@[simp] theorem emitEncReset_savedC (s : State) : (emitEncReset s).savedC = s.savedC := rfl
@[simp] theorem emitEncReset_ploop (s : State) : (emitEncReset s).ploop = s.ploop := rfl
@[simp] theorem emitEncReset_cloop (s : State) : (emitEncReset s).cloop = s.cloop := rfl
@[simp] theorem emitEncReset_trk (s : State) : (emitEncReset s).trk = s.trk := rfl
@[simp] theorem emitEncReset_prof (s : State) : (emitEncReset s).prof = s.prof := rfl
@[simp] theorem emitEncReset_cal (s : State) : (emitEncReset s).cal = s.cal := rfl
@[simp] theorem emitEncReset_posSp (s : State) : (emitEncReset s).posSp = s.posSp := rfl
@[simp] theorem emitEncReset_curSp (s : State) : (emitEncReset s).curSp = s.curSp := rfl
@[simp] theorem emitEncReset_duty (s : State) : (emitEncReset s).duty = s.duty := rfl
@[simp] theorem emitEncReset_drive (s : State) : (emitEncReset s).drive = s.drive := rfl
@[simp] theorem emitEncReset_lastKnown (s : State) : (emitEncReset s).lastKnown = s.lastKnown := rfl
@[simp] theorem emitEncReset_lastFault (s : State) : (emitEncReset s).lastFault = s.lastFault := rfl
@[simp] theorem emitEncReset_faultCount (s : State) : (emitEncReset s).faultCount = s.faultCount := rfl
@[simp] theorem emitEncReset_lastEnc (s : State) : (emitEncReset s).lastEnc = s.lastEnc := rfl
@[simp] theorem emitEncReset_lastCur (s : State) : (emitEncReset s).lastCur = s.lastCur := rfl
@[simp] theorem emitEncReset_snap (s : State) : (emitEncReset s).snap = s.snap := rfl
@[simp] theorem emitEncReset_held (s : State) : (emitEncReset s).held = s.held := rfl
@[simp] theorem emitEncReset_tickIn (s : State) : (emitEncReset s).tickIn = s.tickIn := rfl
@[simp] theorem emitEncReset_out (s : State) : (emitEncReset s).out = { s.out with encReset := true } := rfl
@[simp] theorem emitEncReset_resp (s : State) : (emitEncReset s).resp = s.resp := rfl
@[simp] theorem emitEncReset_tickFresh (s : State) : (emitEncReset s).tickFresh = s.tickFresh := rfl
@[simp] theorem emitEncReset_params (s : State) : (emitEncReset s).params = s.params := rfl
@[simp] theorem emitEncReset_events (s : State) : (emitEncReset s).events = s.events := rfl
@[simp] theorem emitEncReset_draws (s : State) : (emitEncReset s).draws = s.draws := rfl

@[simp] theorem emitHallReset_pend (s : State) : (emitHallReset s).pend = s.pend := rfl
@[simp] theorem emitHallReset_cmd (s : State) : (emitHallReset s).cmd = s.cmd := rfl
@[simp] theorem emitHallReset_cmdFresh (s : State) : (emitHallReset s).cmdFresh = s.cmdFresh := rfl
@[simp] theorem emitHallReset_gainsP (s : State) : (emitHallReset s).gainsP = s.gainsP := rfl
@[simp] theorem emitHallReset_gainsC (s : State) : (emitHallReset s).gainsC = s.gainsC := rfl
@[simp] theorem emitHallReset_savedP (s : State) : (emitHallReset s).savedP = s.savedP := rfl
@[simp] theorem emitHallReset_savedC (s : State) : (emitHallReset s).savedC = s.savedC := rfl
@[simp] theorem emitHallReset_ploop (s : State) : (emitHallReset s).ploop = s.ploop := rfl
@[simp] theorem emitHallReset_cloop (s : State) : (emitHallReset s).cloop = s.cloop := rfl
@[simp] theorem emitHallReset_trk (s : State) : (emitHallReset s).trk = s.trk := rfl
@[simp] theorem emitHallReset_prof (s : State) : (emitHallReset s).prof = s.prof := rfl
@[simp] theorem emitHallReset_cal (s : State) : (emitHallReset s).cal = s.cal := rfl
@[simp] theorem emitHallReset_posSp (s : State) : (emitHallReset s).posSp = s.posSp := rfl
@[simp] theorem emitHallReset_curSp (s : State) : (emitHallReset s).curSp = s.curSp := rfl
@[simp] theorem emitHallReset_duty (s : State) : (emitHallReset s).duty = s.duty := rfl
@[simp] theorem emitHallReset_drive (s : State) : (emitHallReset s).drive = s.drive := rfl
@[simp] theorem emitHallReset_lastKnown (s : State) : (emitHallReset s).lastKnown = s.lastKnown := rfl
@[simp] theorem emitHallReset_lastFault (s : State) : (emitHallReset s).lastFault = s.lastFault := rfl
@[simp] theorem emitHallReset_faultCount (s : State) : (emitHallReset s).faultCount = s.faultCount := rfl
@[simp] theorem emitHallReset_lastEnc (s : State) : (emitHallReset s).lastEnc = s.lastEnc := rfl
@[simp] theorem emitHallReset_lastCur (s : State) : (emitHallReset s).lastCur = s.lastCur := rfl
@[simp] theorem emitHallReset_snap (s : State) : (emitHallReset s).snap = s.snap := rfl
@[simp] theorem emitHallReset_held (s : State) : (emitHallReset s).held = s.held := rfl
@[simp] theorem emitHallReset_tickIn (s : State) : (emitHallReset s).tickIn = s.tickIn := rfl
@[simp] theorem emitHallReset_out (s : State) : (emitHallReset s).out = { s.out with hallReset := true } := rfl
@[simp] theorem emitHallReset_resp (s : State) : (emitHallReset s).resp = s.resp := rfl
@[simp] theorem emitHallReset_tickFresh (s : State) : (emitHallReset s).tickFresh = s.tickFresh := rfl
@[simp] theorem emitHallReset_params (s : State) : (emitHallReset s).params = s.params := rfl
@[simp] theorem emitHallReset_events (s : State) : (emitHallReset s).events = s.events := rfl
@[simp] theorem emitHallReset_draws (s : State) : (emitHallReset s).draws = s.draws := rfl

@[simp] theorem safeOff_pend (s : State) : (safeOff s).pend = s.pend := rfl
@[simp] theorem safeOff_cmd (s : State) : (safeOff s).cmd = s.cmd := rfl
@[simp] theorem safeOff_cmdFresh (s : State) : (safeOff s).cmdFresh = s.cmdFresh := rfl
@[simp] theorem safeOff_gainsP (s : State) : (safeOff s).gainsP = s.gainsP := rfl
@[simp] theorem safeOff_gainsC (s : State) : (safeOff s).gainsC = s.gainsC := rfl
@[simp] theorem safeOff_savedP (s : State) : (safeOff s).savedP = s.savedP := rfl
@[simp] theorem safeOff_savedC (s : State) : (safeOff s).savedC = s.savedC := rfl
@[simp] theorem safeOff_ploop (s : State) : (safeOff s).ploop = .zero := rfl
@[simp] theorem safeOff_cloop (s : State) : (safeOff s).cloop = .zero := rfl
@[simp] theorem safeOff_trk (s : State) : (safeOff s).trk = s.trk := rfl
@[simp] theorem safeOff_prof (s : State) : (safeOff s).prof = s.prof := rfl
@[simp] theorem safeOff_cal (s : State) : (safeOff s).cal = s.cal := rfl
@[simp] theorem safeOff_posSp (s : State) : (safeOff s).posSp = s.posSp := rfl
@[simp] theorem safeOff_curSp (s : State) : (safeOff s).curSp = 0 := rfl
@[simp] theorem safeOff_duty (s : State) : (safeOff s).duty = 0 := rfl
@[simp] theorem safeOff_drive (s : State) : (safeOff s).drive = .off := rfl
@[simp] theorem safeOff_lastKnown (s : State) : (safeOff s).lastKnown = s.lastKnown := rfl
@[simp] theorem safeOff_lastFault (s : State) : (safeOff s).lastFault = s.lastFault := rfl
@[simp] theorem safeOff_faultCount (s : State) : (safeOff s).faultCount = s.faultCount := rfl
@[simp] theorem safeOff_lastEnc (s : State) : (safeOff s).lastEnc = s.lastEnc := rfl
@[simp] theorem safeOff_lastCur (s : State) : (safeOff s).lastCur = s.lastCur := rfl
@[simp] theorem safeOff_snap (s : State) : (safeOff s).snap = s.snap := rfl
@[simp] theorem safeOff_held (s : State) : (safeOff s).held = s.held := rfl
@[simp] theorem safeOff_tickIn (s : State) : (safeOff s).tickIn = s.tickIn := rfl
@[simp] theorem safeOff_out (s : State) : (safeOff s).out = { s.out with act := .disable } := rfl
@[simp] theorem safeOff_resp (s : State) : (safeOff s).resp = s.resp := rfl
@[simp] theorem safeOff_tickFresh (s : State) : (safeOff s).tickFresh = s.tickFresh := rfl
@[simp] theorem safeOff_params (s : State) : (safeOff s).params = s.params := rfl
@[simp] theorem safeOff_events (s : State) : (safeOff s).events = s.events := rfl
@[simp] theorem safeOff_draws (s : State) : (safeOff s).draws = s.draws := rfl

@[simp] theorem revertMode_pend (v : Byte) (s : State) : (revertMode v s).pend = s.pend := rfl
@[simp] theorem revertMode_cmd (v : Byte) (s : State) : (revertMode v s).cmd = { s.cmd with mode := v } := rfl
@[simp] theorem revertMode_cmdFresh (v : Byte) (s : State) : (revertMode v s).cmdFresh = s.cmdFresh := rfl
@[simp] theorem revertMode_gainsP (v : Byte) (s : State) : (revertMode v s).gainsP = s.gainsP := rfl
@[simp] theorem revertMode_gainsC (v : Byte) (s : State) : (revertMode v s).gainsC = s.gainsC := rfl
@[simp] theorem revertMode_savedP (v : Byte) (s : State) : (revertMode v s).savedP = s.savedP := rfl
@[simp] theorem revertMode_savedC (v : Byte) (s : State) : (revertMode v s).savedC = s.savedC := rfl
@[simp] theorem revertMode_ploop (v : Byte) (s : State) : (revertMode v s).ploop = s.ploop := rfl
@[simp] theorem revertMode_cloop (v : Byte) (s : State) : (revertMode v s).cloop = s.cloop := rfl
@[simp] theorem revertMode_trk (v : Byte) (s : State) : (revertMode v s).trk = s.trk := rfl
@[simp] theorem revertMode_prof (v : Byte) (s : State) : (revertMode v s).prof = s.prof := rfl
@[simp] theorem revertMode_cal (v : Byte) (s : State) : (revertMode v s).cal = s.cal := rfl
@[simp] theorem revertMode_posSp (v : Byte) (s : State) : (revertMode v s).posSp = s.posSp := rfl
@[simp] theorem revertMode_curSp (v : Byte) (s : State) : (revertMode v s).curSp = s.curSp := rfl
@[simp] theorem revertMode_duty (v : Byte) (s : State) : (revertMode v s).duty = s.duty := rfl
@[simp] theorem revertMode_drive (v : Byte) (s : State) : (revertMode v s).drive = s.drive := rfl
@[simp] theorem revertMode_lastKnown (v : Byte) (s : State) : (revertMode v s).lastKnown = s.lastKnown := rfl
@[simp] theorem revertMode_lastFault (v : Byte) (s : State) : (revertMode v s).lastFault = s.lastFault := rfl
@[simp] theorem revertMode_faultCount (v : Byte) (s : State) : (revertMode v s).faultCount = s.faultCount := rfl
@[simp] theorem revertMode_lastEnc (v : Byte) (s : State) : (revertMode v s).lastEnc = s.lastEnc := rfl
@[simp] theorem revertMode_lastCur (v : Byte) (s : State) : (revertMode v s).lastCur = s.lastCur := rfl
@[simp] theorem revertMode_snap (v : Byte) (s : State) : (revertMode v s).snap = s.snap := rfl
@[simp] theorem revertMode_held (v : Byte) (s : State) : (revertMode v s).held = s.held := rfl
@[simp] theorem revertMode_tickIn (v : Byte) (s : State) : (revertMode v s).tickIn = s.tickIn := rfl
@[simp] theorem revertMode_out (v : Byte) (s : State) : (revertMode v s).out = s.out := rfl
@[simp] theorem revertMode_resp (v : Byte) (s : State) : (revertMode v s).resp = s.resp := rfl
@[simp] theorem revertMode_tickFresh (v : Byte) (s : State) : (revertMode v s).tickFresh = s.tickFresh := rfl
@[simp] theorem revertMode_params (v : Byte) (s : State) : (revertMode v s).params = s.params := rfl
@[simp] theorem revertMode_events (v : Byte) (s : State) : (revertMode v s).events = s.events := rfl
@[simp] theorem revertMode_draws (v : Byte) (s : State) : (revertMode v s).draws = s.draws := rfl

@[simp] theorem publish_pend (s : State) : (publish s).pend = s.pend := rfl
@[simp] theorem publish_cmd (s : State) : (publish s).cmd = s.cmd := rfl
@[simp] theorem publish_cmdFresh (s : State) : (publish s).cmdFresh = s.cmdFresh := rfl
@[simp] theorem publish_gainsP (s : State) : (publish s).gainsP = s.gainsP := rfl
@[simp] theorem publish_gainsC (s : State) : (publish s).gainsC = s.gainsC := rfl
@[simp] theorem publish_savedP (s : State) : (publish s).savedP = s.savedP := rfl
@[simp] theorem publish_savedC (s : State) : (publish s).savedC = s.savedC := rfl
@[simp] theorem publish_ploop (s : State) : (publish s).ploop = s.ploop := rfl
@[simp] theorem publish_cloop (s : State) : (publish s).cloop = s.cloop := rfl
@[simp] theorem publish_trk (s : State) : (publish s).trk = s.trk := rfl
@[simp] theorem publish_prof (s : State) : (publish s).prof = s.prof := rfl
@[simp] theorem publish_cal (s : State) : (publish s).cal = s.cal := rfl
@[simp] theorem publish_posSp (s : State) : (publish s).posSp = s.posSp := rfl
@[simp] theorem publish_curSp (s : State) : (publish s).curSp = s.curSp := rfl
@[simp] theorem publish_duty (s : State) : (publish s).duty = s.duty := rfl
@[simp] theorem publish_drive (s : State) : (publish s).drive = s.drive := rfl
@[simp] theorem publish_lastKnown (s : State) : (publish s).lastKnown = s.lastKnown := rfl
@[simp] theorem publish_lastFault (s : State) : (publish s).lastFault = s.lastFault := rfl
@[simp] theorem publish_faultCount (s : State) : (publish s).faultCount = s.faultCount := rfl
@[simp] theorem publish_lastEnc (s : State) : (publish s).lastEnc = s.lastEnc := rfl
@[simp] theorem publish_lastCur (s : State) : (publish s).lastCur = s.lastCur := rfl
@[simp] theorem publish_snap (s : State) : (publish s).snap = imageOf s := rfl
@[simp] theorem publish_held (s : State) : (publish s).held = s.held := rfl
@[simp] theorem publish_tickIn (s : State) : (publish s).tickIn = s.tickIn := rfl
@[simp] theorem publish_out (s : State) : (publish s).out = s.out := rfl
@[simp] theorem publish_resp (s : State) : (publish s).resp = s.resp := rfl
@[simp] theorem publish_tickFresh (s : State) : (publish s).tickFresh = s.tickFresh := rfl
@[simp] theorem publish_params (s : State) : (publish s).params = s.params := rfl
@[simp] theorem publish_events (s : State) : (publish s).events = s.events := rfl
@[simp] theorem publish_draws (s : State) : (publish s).draws = s.draws := rfl

@[simp] theorem setFresh_pend (s : State) : (setFresh s).pend = s.pend := rfl
@[simp] theorem setFresh_cmd (s : State) : (setFresh s).cmd = s.cmd := rfl
@[simp] theorem setFresh_cmdFresh (s : State) : (setFresh s).cmdFresh = true := rfl
@[simp] theorem setFresh_gainsP (s : State) : (setFresh s).gainsP = s.gainsP := rfl
@[simp] theorem setFresh_gainsC (s : State) : (setFresh s).gainsC = s.gainsC := rfl
@[simp] theorem setFresh_savedP (s : State) : (setFresh s).savedP = s.savedP := rfl
@[simp] theorem setFresh_savedC (s : State) : (setFresh s).savedC = s.savedC := rfl
@[simp] theorem setFresh_ploop (s : State) : (setFresh s).ploop = s.ploop := rfl
@[simp] theorem setFresh_cloop (s : State) : (setFresh s).cloop = s.cloop := rfl
@[simp] theorem setFresh_trk (s : State) : (setFresh s).trk = s.trk := rfl
@[simp] theorem setFresh_prof (s : State) : (setFresh s).prof = s.prof := rfl
@[simp] theorem setFresh_cal (s : State) : (setFresh s).cal = s.cal := rfl
@[simp] theorem setFresh_posSp (s : State) : (setFresh s).posSp = s.posSp := rfl
@[simp] theorem setFresh_curSp (s : State) : (setFresh s).curSp = s.curSp := rfl
@[simp] theorem setFresh_duty (s : State) : (setFresh s).duty = s.duty := rfl
@[simp] theorem setFresh_drive (s : State) : (setFresh s).drive = s.drive := rfl
@[simp] theorem setFresh_lastKnown (s : State) : (setFresh s).lastKnown = s.lastKnown := rfl
@[simp] theorem setFresh_lastFault (s : State) : (setFresh s).lastFault = s.lastFault := rfl
@[simp] theorem setFresh_faultCount (s : State) : (setFresh s).faultCount = s.faultCount := rfl
@[simp] theorem setFresh_lastEnc (s : State) : (setFresh s).lastEnc = s.lastEnc := rfl
@[simp] theorem setFresh_lastCur (s : State) : (setFresh s).lastCur = s.lastCur := rfl
@[simp] theorem setFresh_snap (s : State) : (setFresh s).snap = s.snap := rfl
@[simp] theorem setFresh_held (s : State) : (setFresh s).held = s.held := rfl
@[simp] theorem setFresh_tickIn (s : State) : (setFresh s).tickIn = s.tickIn := rfl
@[simp] theorem setFresh_out (s : State) : (setFresh s).out = s.out := rfl
@[simp] theorem setFresh_resp (s : State) : (setFresh s).resp = s.resp := rfl
@[simp] theorem setFresh_tickFresh (s : State) : (setFresh s).tickFresh = s.tickFresh := rfl
@[simp] theorem setFresh_params (s : State) : (setFresh s).params = s.params := rfl
@[simp] theorem setFresh_events (s : State) : (setFresh s).events = s.events := rfl
@[simp] theorem setFresh_draws (s : State) : (setFresh s).draws = s.draws := rfl

@[simp] theorem clearFresh_pend (s : State) : (clearFresh s).pend = s.pend := rfl
@[simp] theorem clearFresh_cmd (s : State) : (clearFresh s).cmd = s.cmd := rfl
@[simp] theorem clearFresh_cmdFresh (s : State) : (clearFresh s).cmdFresh = false := rfl
@[simp] theorem clearFresh_gainsP (s : State) : (clearFresh s).gainsP = s.gainsP := rfl
@[simp] theorem clearFresh_gainsC (s : State) : (clearFresh s).gainsC = s.gainsC := rfl
@[simp] theorem clearFresh_savedP (s : State) : (clearFresh s).savedP = s.savedP := rfl
@[simp] theorem clearFresh_savedC (s : State) : (clearFresh s).savedC = s.savedC := rfl
@[simp] theorem clearFresh_ploop (s : State) : (clearFresh s).ploop = s.ploop := rfl
@[simp] theorem clearFresh_cloop (s : State) : (clearFresh s).cloop = s.cloop := rfl
@[simp] theorem clearFresh_trk (s : State) : (clearFresh s).trk = s.trk := rfl
@[simp] theorem clearFresh_prof (s : State) : (clearFresh s).prof = s.prof := rfl
@[simp] theorem clearFresh_cal (s : State) : (clearFresh s).cal = s.cal := rfl
@[simp] theorem clearFresh_posSp (s : State) : (clearFresh s).posSp = s.posSp := rfl
@[simp] theorem clearFresh_curSp (s : State) : (clearFresh s).curSp = s.curSp := rfl
@[simp] theorem clearFresh_duty (s : State) : (clearFresh s).duty = s.duty := rfl
@[simp] theorem clearFresh_drive (s : State) : (clearFresh s).drive = s.drive := rfl
@[simp] theorem clearFresh_lastKnown (s : State) : (clearFresh s).lastKnown = s.lastKnown := rfl
@[simp] theorem clearFresh_lastFault (s : State) : (clearFresh s).lastFault = s.lastFault := rfl
@[simp] theorem clearFresh_faultCount (s : State) : (clearFresh s).faultCount = s.faultCount := rfl
@[simp] theorem clearFresh_lastEnc (s : State) : (clearFresh s).lastEnc = s.lastEnc := rfl
@[simp] theorem clearFresh_lastCur (s : State) : (clearFresh s).lastCur = s.lastCur := rfl
@[simp] theorem clearFresh_snap (s : State) : (clearFresh s).snap = s.snap := rfl
@[simp] theorem clearFresh_held (s : State) : (clearFresh s).held = s.held := rfl
@[simp] theorem clearFresh_tickIn (s : State) : (clearFresh s).tickIn = s.tickIn := rfl
@[simp] theorem clearFresh_out (s : State) : (clearFresh s).out = s.out := rfl
@[simp] theorem clearFresh_resp (s : State) : (clearFresh s).resp = s.resp := rfl
@[simp] theorem clearFresh_tickFresh (s : State) : (clearFresh s).tickFresh = s.tickFresh := rfl
@[simp] theorem clearFresh_params (s : State) : (clearFresh s).params = s.params := rfl
@[simp] theorem clearFresh_events (s : State) : (clearFresh s).events = s.events := rfl
@[simp] theorem clearFresh_draws (s : State) : (clearFresh s).draws = s.draws := rfl

@[simp] theorem trackUpdate_pend (raw : Half) (s : State) : (trackUpdate raw s).pend = s.pend := rfl
@[simp] theorem trackUpdate_cmd (raw : Half) (s : State) : (trackUpdate raw s).cmd = s.cmd := rfl
@[simp] theorem trackUpdate_cmdFresh (raw : Half) (s : State) : (trackUpdate raw s).cmdFresh = s.cmdFresh := rfl
@[simp] theorem trackUpdate_gainsP (raw : Half) (s : State) : (trackUpdate raw s).gainsP = s.gainsP := rfl
@[simp] theorem trackUpdate_gainsC (raw : Half) (s : State) : (trackUpdate raw s).gainsC = s.gainsC := rfl
@[simp] theorem trackUpdate_savedP (raw : Half) (s : State) : (trackUpdate raw s).savedP = s.savedP := rfl
@[simp] theorem trackUpdate_savedC (raw : Half) (s : State) : (trackUpdate raw s).savedC = s.savedC := rfl
@[simp] theorem trackUpdate_ploop (raw : Half) (s : State) : (trackUpdate raw s).ploop = s.ploop := rfl
@[simp] theorem trackUpdate_cloop (raw : Half) (s : State) : (trackUpdate raw s).cloop = s.cloop := rfl
@[simp] theorem trackUpdate_trk (raw : Half) (s : State) :
    (trackUpdate raw s).trk =
      trackRaw s.params raw s.trk := rfl
@[simp] theorem trackUpdate_prof (raw : Half) (s : State) : (trackUpdate raw s).prof = s.prof := rfl
@[simp] theorem trackUpdate_cal (raw : Half) (s : State) : (trackUpdate raw s).cal = s.cal := rfl
@[simp] theorem trackUpdate_posSp (raw : Half) (s : State) : (trackUpdate raw s).posSp = s.posSp := rfl
@[simp] theorem trackUpdate_curSp (raw : Half) (s : State) : (trackUpdate raw s).curSp = s.curSp := rfl
@[simp] theorem trackUpdate_duty (raw : Half) (s : State) : (trackUpdate raw s).duty = s.duty := rfl
@[simp] theorem trackUpdate_drive (raw : Half) (s : State) : (trackUpdate raw s).drive = s.drive := rfl
@[simp] theorem trackUpdate_lastKnown (raw : Half) (s : State) : (trackUpdate raw s).lastKnown = s.lastKnown := rfl
@[simp] theorem trackUpdate_lastFault (raw : Half) (s : State) : (trackUpdate raw s).lastFault = s.lastFault := rfl
@[simp] theorem trackUpdate_faultCount (raw : Half) (s : State) : (trackUpdate raw s).faultCount = s.faultCount := rfl
@[simp] theorem trackUpdate_lastEnc (raw : Half) (s : State) : (trackUpdate raw s).lastEnc = s.lastEnc := rfl
@[simp] theorem trackUpdate_lastCur (raw : Half) (s : State) : (trackUpdate raw s).lastCur = s.lastCur := rfl
@[simp] theorem trackUpdate_snap (raw : Half) (s : State) : (trackUpdate raw s).snap = s.snap := rfl
@[simp] theorem trackUpdate_held (raw : Half) (s : State) : (trackUpdate raw s).held = s.held := rfl
@[simp] theorem trackUpdate_tickIn (raw : Half) (s : State) : (trackUpdate raw s).tickIn = s.tickIn := rfl
@[simp] theorem trackUpdate_out (raw : Half) (s : State) : (trackUpdate raw s).out = s.out := rfl
@[simp] theorem trackUpdate_resp (raw : Half) (s : State) : (trackUpdate raw s).resp = s.resp := rfl
@[simp] theorem trackUpdate_tickFresh (raw : Half) (s : State) : (trackUpdate raw s).tickFresh = s.tickFresh := rfl
@[simp] theorem trackUpdate_params (raw : Half) (s : State) : (trackUpdate raw s).params = s.params := rfl
@[simp] theorem trackUpdate_events (raw : Half) (s : State) : (trackUpdate raw s).events = s.events := rfl
@[simp] theorem trackUpdate_draws (raw : Half) (s : State) : (trackUpdate raw s).draws = s.draws := rfl

@[simp] theorem trackReset_pend (s : State) : (trackReset s).pend = s.pend := rfl
@[simp] theorem trackReset_cmd (s : State) : (trackReset s).cmd = s.cmd := rfl
@[simp] theorem trackReset_cmdFresh (s : State) : (trackReset s).cmdFresh = s.cmdFresh := rfl
@[simp] theorem trackReset_gainsP (s : State) : (trackReset s).gainsP = s.gainsP := rfl
@[simp] theorem trackReset_gainsC (s : State) : (trackReset s).gainsC = s.gainsC := rfl
@[simp] theorem trackReset_savedP (s : State) : (trackReset s).savedP = s.savedP := rfl
@[simp] theorem trackReset_savedC (s : State) : (trackReset s).savedC = s.savedC := rfl
@[simp] theorem trackReset_ploop (s : State) : (trackReset s).ploop = s.ploop := rfl
@[simp] theorem trackReset_cloop (s : State) : (trackReset s).cloop = s.cloop := rfl
@[simp] theorem trackReset_trk (s : State) : (trackReset s).trk = { abs := 0, prevRaw := 0 } := rfl
@[simp] theorem trackReset_prof (s : State) : (trackReset s).prof = s.prof := rfl
@[simp] theorem trackReset_cal (s : State) : (trackReset s).cal = s.cal := rfl
@[simp] theorem trackReset_posSp (s : State) : (trackReset s).posSp = s.posSp := rfl
@[simp] theorem trackReset_curSp (s : State) : (trackReset s).curSp = s.curSp := rfl
@[simp] theorem trackReset_duty (s : State) : (trackReset s).duty = s.duty := rfl
@[simp] theorem trackReset_drive (s : State) : (trackReset s).drive = s.drive := rfl
@[simp] theorem trackReset_lastKnown (s : State) : (trackReset s).lastKnown = s.lastKnown := rfl
@[simp] theorem trackReset_lastFault (s : State) : (trackReset s).lastFault = s.lastFault := rfl
@[simp] theorem trackReset_faultCount (s : State) : (trackReset s).faultCount = s.faultCount := rfl
@[simp] theorem trackReset_lastEnc (s : State) : (trackReset s).lastEnc = s.lastEnc := rfl
@[simp] theorem trackReset_lastCur (s : State) : (trackReset s).lastCur = s.lastCur := rfl
@[simp] theorem trackReset_snap (s : State) : (trackReset s).snap = s.snap := rfl
@[simp] theorem trackReset_held (s : State) : (trackReset s).held = s.held := rfl
@[simp] theorem trackReset_tickIn (s : State) : (trackReset s).tickIn = s.tickIn := rfl
@[simp] theorem trackReset_out (s : State) : (trackReset s).out = s.out := rfl
@[simp] theorem trackReset_resp (s : State) : (trackReset s).resp = s.resp := rfl
@[simp] theorem trackReset_tickFresh (s : State) : (trackReset s).tickFresh = s.tickFresh := rfl
@[simp] theorem trackReset_params (s : State) : (trackReset s).params = s.params := rfl
@[simp] theorem trackReset_events (s : State) : (trackReset s).events = s.events := rfl
@[simp] theorem trackReset_draws (s : State) : (trackReset s).draws = s.draws := rfl

@[simp] theorem runLoops_pend (k : Nat) (s : State) : (runLoops k s).pend = s.pend := rfl
@[simp] theorem runLoops_cmd (k : Nat) (s : State) : (runLoops k s).cmd = s.cmd := rfl
@[simp] theorem runLoops_cmdFresh (k : Nat) (s : State) : (runLoops k s).cmdFresh = s.cmdFresh := rfl
@[simp] theorem runLoops_gainsP (k : Nat) (s : State) : (runLoops k s).gainsP = s.gainsP := rfl
@[simp] theorem runLoops_gainsC (k : Nat) (s : State) : (runLoops k s).gainsC = s.gainsC := rfl
@[simp] theorem runLoops_savedP (k : Nat) (s : State) : (runLoops k s).savedP = s.savedP := rfl
@[simp] theorem runLoops_savedC (k : Nat) (s : State) : (runLoops k s).savedC = s.savedC := rfl
@[simp] theorem runLoops_ploop (k : Nat) (s : State) : (runLoops k s).ploop = (runPositionLoop k s).1 := rfl
@[simp] theorem runLoops_cloop (k : Nat) (s : State) :
    (runLoops k s).cloop =
      (runCurrentLoop (runPositionLoop k s).2 s).1 := rfl
@[simp] theorem runLoops_trk (k : Nat) (s : State) : (runLoops k s).trk = s.trk := rfl
@[simp] theorem runLoops_prof (k : Nat) (s : State) : (runLoops k s).prof = s.prof := rfl
@[simp] theorem runLoops_cal (k : Nat) (s : State) : (runLoops k s).cal = s.cal := rfl
@[simp] theorem runLoops_posSp (k : Nat) (s : State) : (runLoops k s).posSp = s.posSp := rfl
@[simp] theorem runLoops_curSp (k : Nat) (s : State) :
    (runLoops k s).curSp =
      BitVec.ofInt 16 (runPositionLoop k s).2 := rfl
@[simp] theorem runLoops_duty (k : Nat) (s : State) :
    (runLoops k s).duty =
      BitVec.ofInt 16 (runCurrentLoop (runPositionLoop k s).2 s).2 := rfl
@[simp] theorem runLoops_drive (k : Nat) (s : State) :
    (runLoops k s).drive =
      driveOf (driveDir (runPositionLoop k s).2) := rfl
@[simp] theorem runLoops_lastKnown (k : Nat) (s : State) : (runLoops k s).lastKnown = s.lastKnown := rfl
@[simp] theorem runLoops_lastFault (k : Nat) (s : State) : (runLoops k s).lastFault = s.lastFault := rfl
@[simp] theorem runLoops_faultCount (k : Nat) (s : State) : (runLoops k s).faultCount = s.faultCount := rfl
@[simp] theorem runLoops_lastEnc (k : Nat) (s : State) : (runLoops k s).lastEnc = s.lastEnc := rfl
@[simp] theorem runLoops_lastCur (k : Nat) (s : State) : (runLoops k s).lastCur = s.lastCur := rfl
@[simp] theorem runLoops_snap (k : Nat) (s : State) : (runLoops k s).snap = s.snap := rfl
@[simp] theorem runLoops_held (k : Nat) (s : State) : (runLoops k s).held = s.held := rfl
@[simp] theorem runLoops_tickIn (k : Nat) (s : State) : (runLoops k s).tickIn = s.tickIn := rfl
@[simp] theorem runLoops_out (k : Nat) (s : State) :
    (runLoops k s).out =
      { s.out with
        act := .drive (driveDir (runPositionLoop k s).2)
          (BitVec.ofInt 16 (runCurrentLoop (runPositionLoop k s).2 s).2) .signMagnitude } := rfl
@[simp] theorem runLoops_resp (k : Nat) (s : State) : (runLoops k s).resp = s.resp := rfl
@[simp] theorem runLoops_tickFresh (k : Nat) (s : State) : (runLoops k s).tickFresh = s.tickFresh := rfl
@[simp] theorem runLoops_params (k : Nat) (s : State) : (runLoops k s).params = s.params := rfl
@[simp] theorem runLoops_events (k : Nat) (s : State) : (runLoops k s).events = s.events := rfl
@[simp] theorem runLoops_draws (k : Nat) (s : State) : (runLoops k s).draws = s.draws := rfl

@[simp] theorem profDerive_pend (s : State) : (profDerive s).pend = s.pend := rfl
@[simp] theorem profDerive_cmd (s : State) : (profDerive s).cmd = s.cmd := rfl
@[simp] theorem profDerive_cmdFresh (s : State) : (profDerive s).cmdFresh = s.cmdFresh := rfl
@[simp] theorem profDerive_gainsP (s : State) : (profDerive s).gainsP = s.gainsP := rfl
@[simp] theorem profDerive_gainsC (s : State) : (profDerive s).gainsC = s.gainsC := rfl
@[simp] theorem profDerive_savedP (s : State) : (profDerive s).savedP = s.savedP := rfl
@[simp] theorem profDerive_savedC (s : State) : (profDerive s).savedC = s.savedC := rfl
@[simp] theorem profDerive_ploop (s : State) : (profDerive s).ploop = .zero := rfl
@[simp] theorem profDerive_cloop (s : State) : (profDerive s).cloop = .zero := rfl
@[simp] theorem profDerive_trk (s : State) : (profDerive s).trk = s.trk := rfl
@[simp] theorem profDerive_prof (s : State) : (profDerive s).prof = derivedProfile s := rfl
@[simp] theorem profDerive_cal (s : State) : (profDerive s).cal = s.cal := rfl
@[simp] theorem profDerive_posSp (s : State) : (profDerive s).posSp = s.posSp := rfl
@[simp] theorem profDerive_curSp (s : State) : (profDerive s).curSp = s.curSp := rfl
@[simp] theorem profDerive_duty (s : State) : (profDerive s).duty = s.duty := rfl
@[simp] theorem profDerive_drive (s : State) : (profDerive s).drive = s.drive := rfl
@[simp] theorem profDerive_lastKnown (s : State) : (profDerive s).lastKnown = s.lastKnown := rfl
@[simp] theorem profDerive_lastFault (s : State) : (profDerive s).lastFault = s.lastFault := rfl
@[simp] theorem profDerive_faultCount (s : State) : (profDerive s).faultCount = s.faultCount := rfl
@[simp] theorem profDerive_lastEnc (s : State) : (profDerive s).lastEnc = s.lastEnc := rfl
@[simp] theorem profDerive_lastCur (s : State) : (profDerive s).lastCur = s.lastCur := rfl
@[simp] theorem profDerive_snap (s : State) : (profDerive s).snap = s.snap := rfl
@[simp] theorem profDerive_held (s : State) : (profDerive s).held = s.held := rfl
@[simp] theorem profDerive_tickIn (s : State) : (profDerive s).tickIn = s.tickIn := rfl
@[simp] theorem profDerive_out (s : State) : (profDerive s).out = s.out := rfl
@[simp] theorem profDerive_resp (s : State) : (profDerive s).resp = s.resp := rfl
@[simp] theorem profDerive_tickFresh (s : State) : (profDerive s).tickFresh = s.tickFresh := rfl
@[simp] theorem profDerive_params (s : State) : (profDerive s).params = s.params := rfl
@[simp] theorem profDerive_events (s : State) : (profDerive s).events = s.events := rfl
@[simp] theorem profDerive_draws (s : State) : (profDerive s).draws = s.draws := rfl

@[simp] theorem profReject_pend (s : State) : (profReject s).pend = s.pend := rfl
@[simp] theorem profReject_cmd (s : State) : (profReject s).cmd = { s.cmd with mode := 0 } := rfl
@[simp] theorem profReject_cmdFresh (s : State) : (profReject s).cmdFresh = s.cmdFresh := rfl
@[simp] theorem profReject_gainsP (s : State) : (profReject s).gainsP = s.gainsP := rfl
@[simp] theorem profReject_gainsC (s : State) : (profReject s).gainsC = s.gainsC := rfl
@[simp] theorem profReject_savedP (s : State) : (profReject s).savedP = s.savedP := rfl
@[simp] theorem profReject_savedC (s : State) : (profReject s).savedC = s.savedC := rfl
@[simp] theorem profReject_ploop (s : State) : (profReject s).ploop = .zero := rfl
@[simp] theorem profReject_cloop (s : State) : (profReject s).cloop = .zero := rfl
@[simp] theorem profReject_trk (s : State) : (profReject s).trk = s.trk := rfl
@[simp] theorem profReject_prof (s : State) : (profReject s).prof = { s.prof with active := false } := rfl
@[simp] theorem profReject_cal (s : State) : (profReject s).cal = s.cal := rfl
@[simp] theorem profReject_posSp (s : State) : (profReject s).posSp = s.posSp := rfl
@[simp] theorem profReject_curSp (s : State) : (profReject s).curSp = 0 := rfl
@[simp] theorem profReject_duty (s : State) : (profReject s).duty = 0 := rfl
@[simp] theorem profReject_drive (s : State) : (profReject s).drive = .off := rfl
@[simp] theorem profReject_lastKnown (s : State) : (profReject s).lastKnown = s.lastKnown := rfl
@[simp] theorem profReject_lastFault (s : State) : (profReject s).lastFault = 3 := rfl
@[simp] theorem profReject_faultCount (s : State) : (profReject s).faultCount = bumpCount s.faultCount := rfl
@[simp] theorem profReject_lastEnc (s : State) : (profReject s).lastEnc = s.lastEnc := rfl
@[simp] theorem profReject_lastCur (s : State) : (profReject s).lastCur = s.lastCur := rfl
@[simp] theorem profReject_snap (s : State) : (profReject s).snap = s.snap := rfl
@[simp] theorem profReject_held (s : State) : (profReject s).held = s.held := rfl
@[simp] theorem profReject_tickIn (s : State) : (profReject s).tickIn = s.tickIn := rfl
@[simp] theorem profReject_out (s : State) : (profReject s).out = { s.out with act := .disable } := rfl
@[simp] theorem profReject_resp (s : State) : (profReject s).resp = s.resp := rfl
@[simp] theorem profReject_tickFresh (s : State) : (profReject s).tickFresh = s.tickFresh := rfl
@[simp] theorem profReject_params (s : State) : (profReject s).params = s.params := rfl
@[simp] theorem profReject_events (s : State) : (profReject s).events = s.events := rfl
@[simp] theorem profReject_draws (s : State) : (profReject s).draws = s.draws := rfl

@[simp] theorem profComplete_pend (s : State) : (profComplete s).pend = s.pend := rfl
@[simp] theorem profComplete_cmd (s : State) : (profComplete s).cmd = { s.cmd with mode := 0 } := rfl
@[simp] theorem profComplete_cmdFresh (s : State) : (profComplete s).cmdFresh = s.cmdFresh := rfl
@[simp] theorem profComplete_gainsP (s : State) : (profComplete s).gainsP = s.gainsP := rfl
@[simp] theorem profComplete_gainsC (s : State) : (profComplete s).gainsC = s.gainsC := rfl
@[simp] theorem profComplete_savedP (s : State) : (profComplete s).savedP = s.savedP := rfl
@[simp] theorem profComplete_savedC (s : State) : (profComplete s).savedC = s.savedC := rfl
@[simp] theorem profComplete_ploop (s : State) : (profComplete s).ploop = .zero := rfl
@[simp] theorem profComplete_cloop (s : State) : (profComplete s).cloop = .zero := rfl
@[simp] theorem profComplete_trk (s : State) : (profComplete s).trk = s.trk := rfl
@[simp] theorem profComplete_prof (s : State) : (profComplete s).prof = { s.prof with active := false } := rfl
@[simp] theorem profComplete_cal (s : State) : (profComplete s).cal = s.cal := rfl
@[simp] theorem profComplete_posSp (s : State) :
    (profComplete s).posSp =
      position s.params ((s.prof.startPos.toNat : Int) + (s.prof.dist.toNat : Int)) := rfl
@[simp] theorem profComplete_curSp (s : State) : (profComplete s).curSp = 0 := rfl
@[simp] theorem profComplete_duty (s : State) : (profComplete s).duty = 0 := rfl
@[simp] theorem profComplete_drive (s : State) : (profComplete s).drive = .off := rfl
@[simp] theorem profComplete_lastKnown (s : State) : (profComplete s).lastKnown = s.lastEnc := rfl
@[simp] theorem profComplete_lastFault (s : State) : (profComplete s).lastFault = s.lastFault := rfl
@[simp] theorem profComplete_faultCount (s : State) : (profComplete s).faultCount = s.faultCount := rfl
@[simp] theorem profComplete_lastEnc (s : State) : (profComplete s).lastEnc = s.lastEnc := rfl
@[simp] theorem profComplete_lastCur (s : State) : (profComplete s).lastCur = s.lastCur := rfl
@[simp] theorem profComplete_snap (s : State) : (profComplete s).snap = s.snap := rfl
@[simp] theorem profComplete_held (s : State) : (profComplete s).held = s.held := rfl
@[simp] theorem profComplete_tickIn (s : State) : (profComplete s).tickIn = s.tickIn := rfl
@[simp] theorem profComplete_out (s : State) : (profComplete s).out = { s.out with act := .disable } := rfl
@[simp] theorem profComplete_resp (s : State) : (profComplete s).resp = s.resp := rfl
@[simp] theorem profComplete_tickFresh (s : State) : (profComplete s).tickFresh = s.tickFresh := rfl
@[simp] theorem profComplete_params (s : State) : (profComplete s).params = s.params := rfl
@[simp] theorem profComplete_events (s : State) : (profComplete s).events = s.events := rfl
@[simp] theorem profComplete_draws (s : State) : (profComplete s).draws = s.draws := rfl

@[simp] theorem profDiscard_pend (s : State) : (profDiscard s).pend = s.pend := rfl
@[simp] theorem profDiscard_cmd (s : State) : (profDiscard s).cmd = s.cmd := rfl
@[simp] theorem profDiscard_cmdFresh (s : State) : (profDiscard s).cmdFresh = s.cmdFresh := rfl
@[simp] theorem profDiscard_gainsP (s : State) : (profDiscard s).gainsP = s.gainsP := rfl
@[simp] theorem profDiscard_gainsC (s : State) : (profDiscard s).gainsC = s.gainsC := rfl
@[simp] theorem profDiscard_savedP (s : State) : (profDiscard s).savedP = s.savedP := rfl
@[simp] theorem profDiscard_savedC (s : State) : (profDiscard s).savedC = s.savedC := rfl
@[simp] theorem profDiscard_ploop (s : State) : (profDiscard s).ploop = s.ploop := rfl
@[simp] theorem profDiscard_cloop (s : State) : (profDiscard s).cloop = s.cloop := rfl
@[simp] theorem profDiscard_trk (s : State) : (profDiscard s).trk = s.trk := rfl
@[simp] theorem profDiscard_prof (s : State) : (profDiscard s).prof = { s.prof with active := false } := rfl
@[simp] theorem profDiscard_cal (s : State) : (profDiscard s).cal = s.cal := rfl
@[simp] theorem profDiscard_posSp (s : State) : (profDiscard s).posSp = s.posSp := rfl
@[simp] theorem profDiscard_curSp (s : State) : (profDiscard s).curSp = s.curSp := rfl
@[simp] theorem profDiscard_duty (s : State) : (profDiscard s).duty = s.duty := rfl
@[simp] theorem profDiscard_drive (s : State) : (profDiscard s).drive = s.drive := rfl
@[simp] theorem profDiscard_lastKnown (s : State) : (profDiscard s).lastKnown = s.lastKnown := rfl
@[simp] theorem profDiscard_lastFault (s : State) : (profDiscard s).lastFault = s.lastFault := rfl
@[simp] theorem profDiscard_faultCount (s : State) : (profDiscard s).faultCount = s.faultCount := rfl
@[simp] theorem profDiscard_lastEnc (s : State) : (profDiscard s).lastEnc = s.lastEnc := rfl
@[simp] theorem profDiscard_lastCur (s : State) : (profDiscard s).lastCur = s.lastCur := rfl
@[simp] theorem profDiscard_snap (s : State) : (profDiscard s).snap = s.snap := rfl
@[simp] theorem profDiscard_held (s : State) : (profDiscard s).held = s.held := rfl
@[simp] theorem profDiscard_tickIn (s : State) : (profDiscard s).tickIn = s.tickIn := rfl
@[simp] theorem profDiscard_out (s : State) : (profDiscard s).out = s.out := rfl
@[simp] theorem profDiscard_resp (s : State) : (profDiscard s).resp = s.resp := rfl
@[simp] theorem profDiscard_tickFresh (s : State) : (profDiscard s).tickFresh = s.tickFresh := rfl
@[simp] theorem profDiscard_params (s : State) : (profDiscard s).params = s.params := rfl
@[simp] theorem profDiscard_events (s : State) : (profDiscard s).events = s.events := rfl
@[simp] theorem profDiscard_draws (s : State) : (profDiscard s).draws = s.draws := rfl

@[simp] theorem calAbort_pend (s : State) : (calAbort s).pend = s.pend := rfl
@[simp] theorem calAbort_cmd (s : State) : (calAbort s).cmd = s.cmd := rfl
@[simp] theorem calAbort_cmdFresh (s : State) : (calAbort s).cmdFresh = s.cmdFresh := rfl
@[simp] theorem calAbort_gainsP (s : State) : (calAbort s).gainsP = s.savedP := rfl
@[simp] theorem calAbort_gainsC (s : State) : (calAbort s).gainsC = s.savedC := rfl
@[simp] theorem calAbort_savedP (s : State) : (calAbort s).savedP = s.savedP := rfl
@[simp] theorem calAbort_savedC (s : State) : (calAbort s).savedC = s.savedC := rfl
@[simp] theorem calAbort_ploop (s : State) : (calAbort s).ploop = .zero := rfl
@[simp] theorem calAbort_cloop (s : State) : (calAbort s).cloop = .zero := rfl
@[simp] theorem calAbort_trk (s : State) : (calAbort s).trk = s.trk := rfl
@[simp] theorem calAbort_prof (s : State) : (calAbort s).prof = s.prof := rfl
@[simp] theorem calAbort_cal (s : State) :
    (calAbort s).cal =
      { s.cal with
        flag := false, step := 0, dbActive := false, samples := clearedSamples s.params, scount := 0 } := rfl
@[simp] theorem calAbort_posSp (s : State) : (calAbort s).posSp = s.posSp := rfl
@[simp] theorem calAbort_curSp (s : State) : (calAbort s).curSp = s.curSp := rfl
@[simp] theorem calAbort_duty (s : State) : (calAbort s).duty = s.duty := rfl
@[simp] theorem calAbort_drive (s : State) : (calAbort s).drive = s.drive := rfl
@[simp] theorem calAbort_lastKnown (s : State) : (calAbort s).lastKnown = s.lastKnown := rfl
@[simp] theorem calAbort_lastFault (s : State) : (calAbort s).lastFault = s.lastFault := rfl
@[simp] theorem calAbort_faultCount (s : State) : (calAbort s).faultCount = s.faultCount := rfl
@[simp] theorem calAbort_lastEnc (s : State) : (calAbort s).lastEnc = s.lastEnc := rfl
@[simp] theorem calAbort_lastCur (s : State) : (calAbort s).lastCur = s.lastCur := rfl
@[simp] theorem calAbort_snap (s : State) : (calAbort s).snap = s.snap := rfl
@[simp] theorem calAbort_held (s : State) : (calAbort s).held = s.held := rfl
@[simp] theorem calAbort_tickIn (s : State) : (calAbort s).tickIn = s.tickIn := rfl
@[simp] theorem calAbort_out (s : State) : (calAbort s).out = s.out := rfl
@[simp] theorem calAbort_resp (s : State) : (calAbort s).resp = s.resp := rfl
@[simp] theorem calAbort_tickFresh (s : State) : (calAbort s).tickFresh = s.tickFresh := rfl
@[simp] theorem calAbort_params (s : State) : (calAbort s).params = s.params := rfl
@[simp] theorem calAbort_events (s : State) : (calAbort s).events = s.events := rfl
@[simp] theorem calAbort_draws (s : State) : (calAbort s).draws = s.draws := rfl

@[simp] theorem calTimeout_pend (s : State) : (calTimeout s).pend = s.pend := rfl
@[simp] theorem calTimeout_cmd (s : State) : (calTimeout s).cmd = { s.cmd with mode := 255 } := rfl
@[simp] theorem calTimeout_cmdFresh (s : State) : (calTimeout s).cmdFresh = s.cmdFresh := rfl
@[simp] theorem calTimeout_gainsP (s : State) : (calTimeout s).gainsP = s.savedP := rfl
@[simp] theorem calTimeout_gainsC (s : State) : (calTimeout s).gainsC = s.savedC := rfl
@[simp] theorem calTimeout_savedP (s : State) : (calTimeout s).savedP = s.savedP := rfl
@[simp] theorem calTimeout_savedC (s : State) : (calTimeout s).savedC = s.savedC := rfl
@[simp] theorem calTimeout_ploop (s : State) : (calTimeout s).ploop = .zero := rfl
@[simp] theorem calTimeout_cloop (s : State) : (calTimeout s).cloop = .zero := rfl
@[simp] theorem calTimeout_trk (s : State) : (calTimeout s).trk = s.trk := rfl
@[simp] theorem calTimeout_prof (s : State) : (calTimeout s).prof = s.prof := rfl
@[simp] theorem calTimeout_cal (s : State) :
    (calTimeout s).cal =
      { s.cal with
        flag := false, step := 0, dbActive := false, samples := clearedSamples s.params, scount := 0 } := rfl
@[simp] theorem calTimeout_posSp (s : State) : (calTimeout s).posSp = s.posSp := rfl
@[simp] theorem calTimeout_curSp (s : State) : (calTimeout s).curSp = 0 := rfl
@[simp] theorem calTimeout_duty (s : State) : (calTimeout s).duty = 0 := rfl
@[simp] theorem calTimeout_drive (s : State) : (calTimeout s).drive = .off := rfl
@[simp] theorem calTimeout_lastKnown (s : State) : (calTimeout s).lastKnown = s.lastKnown := rfl
@[simp] theorem calTimeout_lastFault (s : State) : (calTimeout s).lastFault = 4 := rfl
@[simp] theorem calTimeout_faultCount (s : State) : (calTimeout s).faultCount = bumpCount s.faultCount := rfl
@[simp] theorem calTimeout_lastEnc (s : State) : (calTimeout s).lastEnc = s.lastEnc := rfl
@[simp] theorem calTimeout_lastCur (s : State) : (calTimeout s).lastCur = s.lastCur := rfl
@[simp] theorem calTimeout_snap (s : State) : (calTimeout s).snap = s.snap := rfl
@[simp] theorem calTimeout_held (s : State) : (calTimeout s).held = s.held := rfl
@[simp] theorem calTimeout_tickIn (s : State) : (calTimeout s).tickIn = s.tickIn := rfl
@[simp] theorem calTimeout_out (s : State) : (calTimeout s).out = { s.out with act := .disable } := rfl
@[simp] theorem calTimeout_resp (s : State) : (calTimeout s).resp = s.resp := rfl
@[simp] theorem calTimeout_tickFresh (s : State) : (calTimeout s).tickFresh = s.tickFresh := rfl
@[simp] theorem calTimeout_params (s : State) : (calTimeout s).params = s.params := rfl
@[simp] theorem calTimeout_events (s : State) : (calTimeout s).events = s.events := rfl
@[simp] theorem calTimeout_draws (s : State) : (calTimeout s).draws = s.draws := rfl

@[simp] theorem gateMark_pend (s : State) : (gateMark s).pend = s.pend := rfl
@[simp] theorem gateMark_cmd (s : State) : (gateMark s).cmd = s.cmd := rfl
@[simp] theorem gateMark_cmdFresh (s : State) : (gateMark s).cmdFresh = s.cmdFresh := rfl
@[simp] theorem gateMark_gainsP (s : State) : (gateMark s).gainsP = s.gainsP := rfl
@[simp] theorem gateMark_gainsC (s : State) : (gateMark s).gainsC = s.gainsC := rfl
@[simp] theorem gateMark_savedP (s : State) : (gateMark s).savedP = s.savedP := rfl
@[simp] theorem gateMark_savedC (s : State) : (gateMark s).savedC = s.savedC := rfl
@[simp] theorem gateMark_ploop (s : State) : (gateMark s).ploop = s.ploop := rfl
@[simp] theorem gateMark_cloop (s : State) : (gateMark s).cloop = s.cloop := rfl
@[simp] theorem gateMark_trk (s : State) : (gateMark s).trk = s.trk := rfl
@[simp] theorem gateMark_prof (s : State) : (gateMark s).prof = s.prof := rfl
@[simp] theorem gateMark_cal (s : State) : (gateMark s).cal = { s.cal with gateWin := gateWindow s.tickIn.now } := rfl
@[simp] theorem gateMark_posSp (s : State) : (gateMark s).posSp = s.posSp := rfl
@[simp] theorem gateMark_curSp (s : State) : (gateMark s).curSp = s.curSp := rfl
@[simp] theorem gateMark_duty (s : State) : (gateMark s).duty = s.duty := rfl
@[simp] theorem gateMark_drive (s : State) : (gateMark s).drive = s.drive := rfl
@[simp] theorem gateMark_lastKnown (s : State) : (gateMark s).lastKnown = s.lastKnown := rfl
@[simp] theorem gateMark_lastFault (s : State) : (gateMark s).lastFault = s.lastFault := rfl
@[simp] theorem gateMark_faultCount (s : State) : (gateMark s).faultCount = s.faultCount := rfl
@[simp] theorem gateMark_lastEnc (s : State) : (gateMark s).lastEnc = s.lastEnc := rfl
@[simp] theorem gateMark_lastCur (s : State) : (gateMark s).lastCur = s.lastCur := rfl
@[simp] theorem gateMark_snap (s : State) : (gateMark s).snap = s.snap := rfl
@[simp] theorem gateMark_held (s : State) : (gateMark s).held = s.held := rfl
@[simp] theorem gateMark_tickIn (s : State) : (gateMark s).tickIn = s.tickIn := rfl
@[simp] theorem gateMark_out (s : State) : (gateMark s).out = s.out := rfl
@[simp] theorem gateMark_resp (s : State) : (gateMark s).resp = s.resp := rfl
@[simp] theorem gateMark_tickFresh (s : State) : (gateMark s).tickFresh = s.tickFresh := rfl
@[simp] theorem gateMark_params (s : State) : (gateMark s).params = s.params := rfl
@[simp] theorem gateMark_events (s : State) : (gateMark s).events = s.events := rfl
@[simp] theorem gateMark_draws (s : State) : (gateMark s).draws = s.draws := rfl

@[simp] theorem pulseDown_pend (s : State) : (pulseDown s).pend = s.pend := rfl
@[simp] theorem pulseDown_cmd (s : State) : (pulseDown s).cmd = s.cmd := rfl
@[simp] theorem pulseDown_cmdFresh (s : State) : (pulseDown s).cmdFresh = s.cmdFresh := rfl
@[simp] theorem pulseDown_gainsP (s : State) : (pulseDown s).gainsP = s.gainsP := rfl
@[simp] theorem pulseDown_gainsC (s : State) : (pulseDown s).gainsC = s.gainsC := rfl
@[simp] theorem pulseDown_savedP (s : State) : (pulseDown s).savedP = s.savedP := rfl
@[simp] theorem pulseDown_savedC (s : State) : (pulseDown s).savedC = s.savedC := rfl
@[simp] theorem pulseDown_ploop (s : State) : (pulseDown s).ploop = s.ploop := rfl
@[simp] theorem pulseDown_cloop (s : State) : (pulseDown s).cloop = s.cloop := rfl
@[simp] theorem pulseDown_trk (s : State) : (pulseDown s).trk = s.trk := rfl
@[simp] theorem pulseDown_prof (s : State) : (pulseDown s).prof = s.prof := rfl
@[simp] theorem pulseDown_cal (s : State) : (pulseDown s).cal = s.cal := rfl
@[simp] theorem pulseDown_posSp (s : State) :
    (pulseDown s).posSp =
      position s.params ((s.posSp.toNat : Int) - 1) := rfl
@[simp] theorem pulseDown_curSp (s : State) : (pulseDown s).curSp = s.curSp := rfl
@[simp] theorem pulseDown_duty (s : State) : (pulseDown s).duty = s.duty := rfl
@[simp] theorem pulseDown_drive (s : State) : (pulseDown s).drive = s.drive := rfl
@[simp] theorem pulseDown_lastKnown (s : State) : (pulseDown s).lastKnown = s.lastKnown := rfl
@[simp] theorem pulseDown_lastFault (s : State) : (pulseDown s).lastFault = s.lastFault := rfl
@[simp] theorem pulseDown_faultCount (s : State) : (pulseDown s).faultCount = s.faultCount := rfl
@[simp] theorem pulseDown_lastEnc (s : State) : (pulseDown s).lastEnc = s.lastEnc := rfl
@[simp] theorem pulseDown_lastCur (s : State) : (pulseDown s).lastCur = s.lastCur := rfl
@[simp] theorem pulseDown_snap (s : State) : (pulseDown s).snap = s.snap := rfl
@[simp] theorem pulseDown_held (s : State) : (pulseDown s).held = s.held := rfl
@[simp] theorem pulseDown_tickIn (s : State) : (pulseDown s).tickIn = s.tickIn := rfl
@[simp] theorem pulseDown_out (s : State) : (pulseDown s).out = s.out := rfl
@[simp] theorem pulseDown_resp (s : State) : (pulseDown s).resp = s.resp := rfl
@[simp] theorem pulseDown_tickFresh (s : State) : (pulseDown s).tickFresh = s.tickFresh := rfl
@[simp] theorem pulseDown_params (s : State) : (pulseDown s).params = s.params := rfl
@[simp] theorem pulseDown_events (s : State) : (pulseDown s).events = s.events := rfl
@[simp] theorem pulseDown_draws (s : State) : (pulseDown s).draws = s.draws := rfl

@[simp] theorem pulseUp_pend (s : State) : (pulseUp s).pend = s.pend := rfl
@[simp] theorem pulseUp_cmd (s : State) : (pulseUp s).cmd = s.cmd := rfl
@[simp] theorem pulseUp_cmdFresh (s : State) : (pulseUp s).cmdFresh = s.cmdFresh := rfl
@[simp] theorem pulseUp_gainsP (s : State) : (pulseUp s).gainsP = s.gainsP := rfl
@[simp] theorem pulseUp_gainsC (s : State) : (pulseUp s).gainsC = s.gainsC := rfl
@[simp] theorem pulseUp_savedP (s : State) : (pulseUp s).savedP = s.savedP := rfl
@[simp] theorem pulseUp_savedC (s : State) : (pulseUp s).savedC = s.savedC := rfl
@[simp] theorem pulseUp_ploop (s : State) : (pulseUp s).ploop = s.ploop := rfl
@[simp] theorem pulseUp_cloop (s : State) : (pulseUp s).cloop = s.cloop := rfl
@[simp] theorem pulseUp_trk (s : State) : (pulseUp s).trk = s.trk := rfl
@[simp] theorem pulseUp_prof (s : State) : (pulseUp s).prof = s.prof := rfl
@[simp] theorem pulseUp_cal (s : State) : (pulseUp s).cal = s.cal := rfl
@[simp] theorem pulseUp_posSp (s : State) : (pulseUp s).posSp = position s.params ((s.posSp.toNat : Int) + 1) := rfl
@[simp] theorem pulseUp_curSp (s : State) : (pulseUp s).curSp = s.curSp := rfl
@[simp] theorem pulseUp_duty (s : State) : (pulseUp s).duty = s.duty := rfl
@[simp] theorem pulseUp_drive (s : State) : (pulseUp s).drive = s.drive := rfl
@[simp] theorem pulseUp_lastKnown (s : State) : (pulseUp s).lastKnown = s.lastKnown := rfl
@[simp] theorem pulseUp_lastFault (s : State) : (pulseUp s).lastFault = s.lastFault := rfl
@[simp] theorem pulseUp_faultCount (s : State) : (pulseUp s).faultCount = s.faultCount := rfl
@[simp] theorem pulseUp_lastEnc (s : State) : (pulseUp s).lastEnc = s.lastEnc := rfl
@[simp] theorem pulseUp_lastCur (s : State) : (pulseUp s).lastCur = s.lastCur := rfl
@[simp] theorem pulseUp_snap (s : State) : (pulseUp s).snap = s.snap := rfl
@[simp] theorem pulseUp_held (s : State) : (pulseUp s).held = s.held := rfl
@[simp] theorem pulseUp_tickIn (s : State) : (pulseUp s).tickIn = s.tickIn := rfl
@[simp] theorem pulseUp_out (s : State) : (pulseUp s).out = s.out := rfl
@[simp] theorem pulseUp_resp (s : State) : (pulseUp s).resp = s.resp := rfl
@[simp] theorem pulseUp_tickFresh (s : State) : (pulseUp s).tickFresh = s.tickFresh := rfl
@[simp] theorem pulseUp_params (s : State) : (pulseUp s).params = s.params := rfl
@[simp] theorem pulseUp_events (s : State) : (pulseUp s).events = s.events := rfl
@[simp] theorem pulseUp_draws (s : State) : (pulseUp s).draws = s.draws := rfl

@[simp] theorem hardStop_pend (s : State) : (hardStop s).pend = s.pend := rfl
@[simp] theorem hardStop_cmd (s : State) : (hardStop s).cmd = s.cmd := rfl
@[simp] theorem hardStop_cmdFresh (s : State) : (hardStop s).cmdFresh = s.cmdFresh := rfl
@[simp] theorem hardStop_gainsP (s : State) : (hardStop s).gainsP = s.gainsP := rfl
@[simp] theorem hardStop_gainsC (s : State) : (hardStop s).gainsC = s.gainsC := rfl
@[simp] theorem hardStop_savedP (s : State) : (hardStop s).savedP = s.savedP := rfl
@[simp] theorem hardStop_savedC (s : State) : (hardStop s).savedC = s.savedC := rfl
@[simp] theorem hardStop_ploop (s : State) : (hardStop s).ploop = .zero := rfl
@[simp] theorem hardStop_cloop (s : State) : (hardStop s).cloop = .zero := rfl
@[simp] theorem hardStop_trk (s : State) : (hardStop s).trk = { abs := 0, prevRaw := 0 } := rfl
@[simp] theorem hardStop_prof (s : State) : (hardStop s).prof = s.prof := rfl
@[simp] theorem hardStop_cal (s : State) :
    (hardStop s).cal =
      { s.cal with
        ref := 0, dbActive := false, step := 2, stepStart := s.tickIn.now, gateWin := gateWindow s.tickIn.now } := rfl
@[simp] theorem hardStop_posSp (s : State) : (hardStop s).posSp = 0 := rfl
@[simp] theorem hardStop_curSp (s : State) : (hardStop s).curSp = 0 := rfl
@[simp] theorem hardStop_duty (s : State) : (hardStop s).duty = 0 := rfl
@[simp] theorem hardStop_drive (s : State) : (hardStop s).drive = .off := rfl
@[simp] theorem hardStop_lastKnown (s : State) : (hardStop s).lastKnown = s.lastKnown := rfl
@[simp] theorem hardStop_lastFault (s : State) : (hardStop s).lastFault = s.lastFault := rfl
@[simp] theorem hardStop_faultCount (s : State) : (hardStop s).faultCount = s.faultCount := rfl
@[simp] theorem hardStop_lastEnc (s : State) : (hardStop s).lastEnc = s.lastEnc := rfl
@[simp] theorem hardStop_lastCur (s : State) : (hardStop s).lastCur = s.lastCur := rfl
@[simp] theorem hardStop_snap (s : State) : (hardStop s).snap = s.snap := rfl
@[simp] theorem hardStop_held (s : State) : (hardStop s).held = s.held := rfl
@[simp] theorem hardStop_tickIn (s : State) : (hardStop s).tickIn = s.tickIn := rfl
@[simp] theorem hardStop_out (s : State) :
    (hardStop s).out =
      { act := .disable, encReset := true, hallReset := s.out.hallReset } := rfl
@[simp] theorem hardStop_resp (s : State) : (hardStop s).resp = s.resp := rfl
@[simp] theorem hardStop_tickFresh (s : State) : (hardStop s).tickFresh = s.tickFresh := rfl
@[simp] theorem hardStop_params (s : State) : (hardStop s).params = s.params := rfl
@[simp] theorem hardStop_events (s : State) : (hardStop s).events = s.events := rfl
@[simp] theorem hardStop_draws (s : State) : (hardStop s).draws = s.draws := rfl

@[simp] theorem edgeFound_pend (s : State) : (edgeFound s).pend = s.pend := rfl
@[simp] theorem edgeFound_cmd (s : State) : (edgeFound s).cmd = s.cmd := rfl
@[simp] theorem edgeFound_cmdFresh (s : State) : (edgeFound s).cmdFresh = s.cmdFresh := rfl
@[simp] theorem edgeFound_gainsP (s : State) : (edgeFound s).gainsP = s.gainsP := rfl
@[simp] theorem edgeFound_gainsC (s : State) : (edgeFound s).gainsC = s.gainsC := rfl
@[simp] theorem edgeFound_savedP (s : State) : (edgeFound s).savedP = s.savedP := rfl
@[simp] theorem edgeFound_savedC (s : State) : (edgeFound s).savedC = s.savedC := rfl
@[simp] theorem edgeFound_ploop (s : State) : (edgeFound s).ploop = .zero := rfl
@[simp] theorem edgeFound_cloop (s : State) : (edgeFound s).cloop = .zero := rfl
@[simp] theorem edgeFound_trk (s : State) : (edgeFound s).trk = s.trk := rfl
@[simp] theorem edgeFound_prof (s : State) : (edgeFound s).prof = s.prof := rfl
@[simp] theorem edgeFound_cal (s : State) :
    (edgeFound s).cal =
      { s.cal with step := 5, stepStart := s.tickIn.now } := rfl
@[simp] theorem edgeFound_posSp (s : State) : (edgeFound s).posSp = 0 := rfl
@[simp] theorem edgeFound_curSp (s : State) : (edgeFound s).curSp = 0 := rfl
@[simp] theorem edgeFound_duty (s : State) : (edgeFound s).duty = 0 := rfl
@[simp] theorem edgeFound_drive (s : State) : (edgeFound s).drive = .off := rfl
@[simp] theorem edgeFound_lastKnown (s : State) : (edgeFound s).lastKnown = 0 := rfl
@[simp] theorem edgeFound_lastFault (s : State) : (edgeFound s).lastFault = s.lastFault := rfl
@[simp] theorem edgeFound_faultCount (s : State) : (edgeFound s).faultCount = s.faultCount := rfl
@[simp] theorem edgeFound_lastEnc (s : State) : (edgeFound s).lastEnc = s.lastEnc := rfl
@[simp] theorem edgeFound_lastCur (s : State) : (edgeFound s).lastCur = s.lastCur := rfl
@[simp] theorem edgeFound_snap (s : State) : (edgeFound s).snap = s.snap := rfl
@[simp] theorem edgeFound_held (s : State) : (edgeFound s).held = s.held := rfl
@[simp] theorem edgeFound_tickIn (s : State) : (edgeFound s).tickIn = s.tickIn := rfl
@[simp] theorem edgeFound_out (s : State) :
    (edgeFound s).out =
      { act := .disable, encReset := true, hallReset := s.out.hallReset } := rfl
@[simp] theorem edgeFound_resp (s : State) : (edgeFound s).resp = s.resp := rfl
@[simp] theorem edgeFound_tickFresh (s : State) : (edgeFound s).tickFresh = s.tickFresh := rfl
@[simp] theorem edgeFound_params (s : State) : (edgeFound s).params = s.params := rfl
@[simp] theorem edgeFound_events (s : State) : (edgeFound s).events = s.events := rfl
@[simp] theorem edgeFound_draws (s : State) : (edgeFound s).draws = s.draws := rfl

@[simp] theorem calExit_pend (s : State) : (calExit s).pend = s.pend := rfl
@[simp] theorem calExit_cmd (s : State) : (calExit s).cmd = { s.cmd with mode := 0 } := rfl
@[simp] theorem calExit_cmdFresh (s : State) : (calExit s).cmdFresh = s.cmdFresh := rfl
@[simp] theorem calExit_gainsP (s : State) : (calExit s).gainsP = s.savedP := rfl
@[simp] theorem calExit_gainsC (s : State) : (calExit s).gainsC = s.savedC := rfl
@[simp] theorem calExit_savedP (s : State) : (calExit s).savedP = s.savedP := rfl
@[simp] theorem calExit_savedC (s : State) : (calExit s).savedC = s.savedC := rfl
@[simp] theorem calExit_ploop (s : State) : (calExit s).ploop = .zero := rfl
@[simp] theorem calExit_cloop (s : State) : (calExit s).cloop = .zero := rfl
@[simp] theorem calExit_trk (s : State) : (calExit s).trk = s.trk := rfl
@[simp] theorem calExit_prof (s : State) : (calExit s).prof = s.prof := rfl
@[simp] theorem calExit_cal (s : State) :
    (calExit s).cal =
      { s.cal with flag := false, samples := clearedSamples s.params, scount := 0, dbActive := false } := rfl
@[simp] theorem calExit_posSp (s : State) : (calExit s).posSp = s.posSp := rfl
@[simp] theorem calExit_curSp (s : State) : (calExit s).curSp = 0 := rfl
@[simp] theorem calExit_duty (s : State) : (calExit s).duty = 0 := rfl
@[simp] theorem calExit_drive (s : State) : (calExit s).drive = .off := rfl
@[simp] theorem calExit_lastKnown (s : State) : (calExit s).lastKnown = s.lastKnown := rfl
@[simp] theorem calExit_lastFault (s : State) : (calExit s).lastFault = s.lastFault := rfl
@[simp] theorem calExit_faultCount (s : State) : (calExit s).faultCount = s.faultCount := rfl
@[simp] theorem calExit_lastEnc (s : State) : (calExit s).lastEnc = s.lastEnc := rfl
@[simp] theorem calExit_lastCur (s : State) : (calExit s).lastCur = s.lastCur := rfl
@[simp] theorem calExit_snap (s : State) : (calExit s).snap = s.snap := rfl
@[simp] theorem calExit_held (s : State) : (calExit s).held = s.held := rfl
@[simp] theorem calExit_tickIn (s : State) : (calExit s).tickIn = s.tickIn := rfl
@[simp] theorem calExit_out (s : State) : (calExit s).out = { s.out with act := .disable } := rfl
@[simp] theorem calExit_resp (s : State) : (calExit s).resp = s.resp := rfl
@[simp] theorem calExit_tickFresh (s : State) : (calExit s).tickFresh = s.tickFresh := rfl
@[simp] theorem calExit_params (s : State) : (calExit s).params = s.params := rfl
@[simp] theorem calExit_events (s : State) : (calExit s).events = s.events := rfl
@[simp] theorem calExit_draws (s : State) : (calExit s).draws = s.draws := rfl

@[simp] theorem openTick_pend (inp : TickIn) (s : State) : (openTick inp s).pend = s.pend := rfl
@[simp] theorem openTick_cmd (inp : TickIn) (s : State) : (openTick inp s).cmd = s.cmd := rfl
@[simp] theorem openTick_cmdFresh (inp : TickIn) (s : State) : (openTick inp s).cmdFresh = s.cmdFresh := rfl
@[simp] theorem openTick_gainsP (inp : TickIn) (s : State) : (openTick inp s).gainsP = s.gainsP := rfl
@[simp] theorem openTick_gainsC (inp : TickIn) (s : State) : (openTick inp s).gainsC = s.gainsC := rfl
@[simp] theorem openTick_savedP (inp : TickIn) (s : State) : (openTick inp s).savedP = s.savedP := rfl
@[simp] theorem openTick_savedC (inp : TickIn) (s : State) : (openTick inp s).savedC = s.savedC := rfl
@[simp] theorem openTick_ploop (inp : TickIn) (s : State) : (openTick inp s).ploop = s.ploop := rfl
@[simp] theorem openTick_cloop (inp : TickIn) (s : State) : (openTick inp s).cloop = s.cloop := rfl
@[simp] theorem openTick_trk (inp : TickIn) (s : State) : (openTick inp s).trk = s.trk := rfl
@[simp] theorem openTick_prof (inp : TickIn) (s : State) : (openTick inp s).prof = s.prof := rfl
@[simp] theorem openTick_cal (inp : TickIn) (s : State) : (openTick inp s).cal = s.cal := rfl
@[simp] theorem openTick_posSp (inp : TickIn) (s : State) : (openTick inp s).posSp = s.posSp := rfl
@[simp] theorem openTick_curSp (inp : TickIn) (s : State) : (openTick inp s).curSp = s.curSp := rfl
@[simp] theorem openTick_duty (inp : TickIn) (s : State) : (openTick inp s).duty = s.duty := rfl
@[simp] theorem openTick_drive (inp : TickIn) (s : State) : (openTick inp s).drive = s.drive := rfl
@[simp] theorem openTick_lastKnown (inp : TickIn) (s : State) : (openTick inp s).lastKnown = s.lastKnown := rfl
@[simp] theorem openTick_lastFault (inp : TickIn) (s : State) : (openTick inp s).lastFault = s.lastFault := rfl
@[simp] theorem openTick_faultCount (inp : TickIn) (s : State) : (openTick inp s).faultCount = s.faultCount := rfl
@[simp] theorem openTick_lastEnc (inp : TickIn) (s : State) : (openTick inp s).lastEnc = s.lastEnc := rfl
@[simp] theorem openTick_lastCur (inp : TickIn) (s : State) : (openTick inp s).lastCur = s.lastCur := rfl
@[simp] theorem openTick_snap (inp : TickIn) (s : State) : (openTick inp s).snap = s.snap := rfl
@[simp] theorem openTick_held (inp : TickIn) (s : State) : (openTick inp s).held = s.held := rfl
@[simp] theorem openTick_tickIn (inp : TickIn) (s : State) : (openTick inp s).tickIn = inp := rfl
@[simp] theorem openTick_out (inp : TickIn) (s : State) : (openTick inp s).out = .default := rfl
@[simp] theorem openTick_resp (inp : TickIn) (s : State) : (openTick inp s).resp = s.resp := rfl
@[simp] theorem openTick_tickFresh (inp : TickIn) (s : State) : (openTick inp s).tickFresh = s.tickFresh := rfl
@[simp] theorem openTick_params (inp : TickIn) (s : State) : (openTick inp s).params = s.params := rfl
@[simp] theorem openTick_events (inp : TickIn) (s : State) : (openTick inp s).events = s.events := rfl
@[simp] theorem openTick_draws (inp : TickIn) (s : State) : (openTick inp s).draws = s.draws := rfl

@[simp] theorem sampleAndTrack_pend (s : State) : (sampleAndTrack s).pend = s.pend := rfl
@[simp] theorem sampleAndTrack_cmd (s : State) : (sampleAndTrack s).cmd = s.cmd := rfl
@[simp] theorem sampleAndTrack_cmdFresh (s : State) : (sampleAndTrack s).cmdFresh = s.cmdFresh := rfl
@[simp] theorem sampleAndTrack_gainsP (s : State) : (sampleAndTrack s).gainsP = s.gainsP := rfl
@[simp] theorem sampleAndTrack_gainsC (s : State) : (sampleAndTrack s).gainsC = s.gainsC := rfl
@[simp] theorem sampleAndTrack_savedP (s : State) : (sampleAndTrack s).savedP = s.savedP := rfl
@[simp] theorem sampleAndTrack_savedC (s : State) : (sampleAndTrack s).savedC = s.savedC := rfl
@[simp] theorem sampleAndTrack_ploop (s : State) : (sampleAndTrack s).ploop = s.ploop := rfl
@[simp] theorem sampleAndTrack_cloop (s : State) : (sampleAndTrack s).cloop = s.cloop := rfl
@[simp] theorem sampleAndTrack_trk (s : State) :
    (sampleAndTrack s).trk =
      trackRaw s.params (sampledEnc s.params s.tickIn) s.trk := rfl
@[simp] theorem sampleAndTrack_prof (s : State) : (sampleAndTrack s).prof = s.prof := rfl
@[simp] theorem sampleAndTrack_cal (s : State) : (sampleAndTrack s).cal = s.cal := rfl
@[simp] theorem sampleAndTrack_posSp (s : State) : (sampleAndTrack s).posSp = s.posSp := rfl
@[simp] theorem sampleAndTrack_curSp (s : State) : (sampleAndTrack s).curSp = s.curSp := rfl
@[simp] theorem sampleAndTrack_duty (s : State) : (sampleAndTrack s).duty = s.duty := rfl
@[simp] theorem sampleAndTrack_drive (s : State) : (sampleAndTrack s).drive = s.drive := rfl
@[simp] theorem sampleAndTrack_lastKnown (s : State) : (sampleAndTrack s).lastKnown = s.lastKnown := rfl
@[simp] theorem sampleAndTrack_lastFault (s : State) : (sampleAndTrack s).lastFault = s.lastFault := rfl
@[simp] theorem sampleAndTrack_faultCount (s : State) : (sampleAndTrack s).faultCount = s.faultCount := rfl
@[simp] theorem sampleAndTrack_lastEnc (s : State) : (sampleAndTrack s).lastEnc = sampledEnc s.params s.tickIn := rfl
@[simp] theorem sampleAndTrack_lastCur (s : State) : (sampleAndTrack s).lastCur = sampledCur s.tickIn := rfl
@[simp] theorem sampleAndTrack_snap (s : State) : (sampleAndTrack s).snap = s.snap := rfl
@[simp] theorem sampleAndTrack_held (s : State) : (sampleAndTrack s).held = s.held := rfl
@[simp] theorem sampleAndTrack_tickIn (s : State) : (sampleAndTrack s).tickIn = s.tickIn := rfl
@[simp] theorem sampleAndTrack_out (s : State) : (sampleAndTrack s).out = s.out := rfl
@[simp] theorem sampleAndTrack_resp (s : State) : (sampleAndTrack s).resp = s.resp := rfl
@[simp] theorem sampleAndTrack_tickFresh (s : State) : (sampleAndTrack s).tickFresh = s.tickFresh := rfl
@[simp] theorem sampleAndTrack_params (s : State) : (sampleAndTrack s).params = s.params := rfl
@[simp] theorem sampleAndTrack_events (s : State) : (sampleAndTrack s).events = s.events := rfl
@[simp] theorem sampleAndTrack_draws (s : State) : (sampleAndTrack s).draws = s.draws := rfl

@[simp] theorem readCommand_pend (s : State) : (readCommand s).pend = s.pend := rfl
@[simp] theorem readCommand_cmd (s : State) : (readCommand s).cmd = s.cmd := rfl
@[simp] theorem readCommand_cmdFresh (s : State) : (readCommand s).cmdFresh = false := rfl
@[simp] theorem readCommand_gainsP (s : State) : (readCommand s).gainsP = s.gainsP := rfl
@[simp] theorem readCommand_gainsC (s : State) : (readCommand s).gainsC = s.gainsC := rfl
@[simp] theorem readCommand_savedP (s : State) : (readCommand s).savedP = s.savedP := rfl
@[simp] theorem readCommand_savedC (s : State) : (readCommand s).savedC = s.savedC := rfl
@[simp] theorem readCommand_ploop (s : State) : (readCommand s).ploop = s.ploop := rfl
@[simp] theorem readCommand_cloop (s : State) : (readCommand s).cloop = s.cloop := rfl
@[simp] theorem readCommand_trk (s : State) : (readCommand s).trk = s.trk := rfl
@[simp] theorem readCommand_prof (s : State) : (readCommand s).prof = s.prof := rfl
@[simp] theorem readCommand_cal (s : State) : (readCommand s).cal = s.cal := rfl
@[simp] theorem readCommand_posSp (s : State) : (readCommand s).posSp = s.posSp := rfl
@[simp] theorem readCommand_curSp (s : State) : (readCommand s).curSp = s.curSp := rfl
@[simp] theorem readCommand_duty (s : State) : (readCommand s).duty = s.duty := rfl
@[simp] theorem readCommand_drive (s : State) : (readCommand s).drive = s.drive := rfl
@[simp] theorem readCommand_lastKnown (s : State) : (readCommand s).lastKnown = s.lastKnown := rfl
@[simp] theorem readCommand_lastFault (s : State) : (readCommand s).lastFault = s.lastFault := rfl
@[simp] theorem readCommand_faultCount (s : State) : (readCommand s).faultCount = s.faultCount := rfl
@[simp] theorem readCommand_lastEnc (s : State) : (readCommand s).lastEnc = s.lastEnc := rfl
@[simp] theorem readCommand_lastCur (s : State) : (readCommand s).lastCur = s.lastCur := rfl
@[simp] theorem readCommand_snap (s : State) : (readCommand s).snap = s.snap := rfl
@[simp] theorem readCommand_held (s : State) : (readCommand s).held = s.held := rfl
@[simp] theorem readCommand_tickIn (s : State) : (readCommand s).tickIn = s.tickIn := rfl
@[simp] theorem readCommand_out (s : State) : (readCommand s).out = s.out := rfl
@[simp] theorem readCommand_resp (s : State) : (readCommand s).resp = s.resp := rfl
@[simp] theorem readCommand_tickFresh (s : State) : (readCommand s).tickFresh = s.cmdFresh := rfl
@[simp] theorem readCommand_params (s : State) : (readCommand s).params = s.params := rfl
@[simp] theorem readCommand_events (s : State) : (readCommand s).events = s.events := rfl
@[simp] theorem readCommand_draws (s : State) : (readCommand s).draws = s.draws := rfl

end Sys2Proof.Machine
end

