-- ==== Sys2Proof/Laws/Controllers.lean ====
section
/-! SUPPORT. What one PID step and one run of both loops give (44_controllers.md). -/

namespace Sys2Proof.Machine

/-- The saturation has three cases, by where the unsaturated output lies (R232). -/
theorem pidSaturate_cases (g : Gains) (e i u lo hi : Int) (k : Nat) :
    (hi < u ∧ pidSaturate g e i u lo hi k =
      (hi, if g.ki.toNat > 0 then min i (sat32 (fdiv (hi * 2 ^ k - g.kp.toNat * e) g.ki.toNat)) else i)) ∨
    (u ≤ hi ∧ u < lo ∧ pidSaturate g e i u lo hi k =
      (lo, if g.ki.toNat > 0 then max i (sat32 (cdiv (lo * 2 ^ k - g.kp.toNat * e) g.ki.toNat)) else i)) ∨
    (u ≤ hi ∧ lo ≤ u ∧ pidSaturate g e i u lo hi k = (u, i)) := by
  unfold pidSaturate
  by_cases h : hi < u
  · exact .inl ⟨h, by rw [if_pos (by omega)]⟩
  · by_cases h' : u < lo
    · exact .inr (.inl ⟨by omega, h', by rw [if_neg (by omega), if_pos h']⟩)
    · exact .inr (.inr ⟨by omega, by omega, by rw [if_neg (by omega), if_neg h']⟩)

/-- The output is in [lo, hi] (R232). -/
theorem pidSaturate_range {lo hi : Int} (h : lo ≤ hi) (g : Gains) (e i u : Int) (k : Nat) :
    lo ≤ (pidSaturate g e i u lo hi k).1 ∧ (pidSaturate g e i u lo hi k).1 ≤ hi := by
  obtain ⟨h1, h2⟩ | ⟨h1, h2, h3⟩ | ⟨h1, h2, h3⟩ := pidSaturate_cases g e i u lo hi k <;> simp [*]

/-- The integral stays in its 32 bits (R9, R232). -/
theorem pidSaturate_integral_range {i : Int} (h : -2 ^ 31 ≤ i ∧ i ≤ 2 ^ 31 - 1) (g : Gains) (e u lo hi : Int) (k : Nat) :
    -2 ^ 31 ≤ (pidSaturate g e i u lo hi k).2 ∧ (pidSaturate g e i u lo hi k).2 ≤ 2 ^ 31 - 1 := by
  have a := sat32_range (fdiv (hi * 2 ^ k - g.kp.toNat * e) g.ki.toNat)
  have b := sat32_range (cdiv (lo * 2 ^ k - g.kp.toNat * e) g.ki.toNat)
  obtain ⟨-, h2⟩ | ⟨-, -, h3⟩ | ⟨-, -, h3⟩ := pidSaturate_cases g e i u lo hi k
  · rw [h2]; dsimp only; split <;> omega
  · rw [h3]; dsimp only; split <;> omega
  · rw [h3]; exact h

theorem pidStep_output (n : Nat) (l : LoopState) (g : Gains) (e lo hi : Int) (k : Nat) :
    (pidStep n l g e lo hi k).2 =
      (pidSaturate g e (pidAccumulate l e)
        (fdiv (pidRaw g e (pidAccumulate l e) (pidDerivative l e)) (2 ^ k)) lo hi k).1 := rfl

/-- The output of a PID step is in its range (R232). -/
theorem pidStep_output_range {lo hi : Int} (h : lo ≤ hi) (n : Nat) (l : LoopState) (g : Gains) (e : Int) (k : Nat) :
    lo ≤ (pidStep n l g e lo hi k).2 ∧ (pidStep n l g e lo hi k).2 ≤ hi :=
  pidSaturate_range h g e _ _ k

/-- The new integral, read back from its register (R232): no bit is lost. -/
theorem pidStep_integ (n : Nat) (l : LoopState) (g : Gains) (e lo hi : Int) (k : Nat) :
    (pidStep n l g e lo hi k).1.integ.toInt =
      (pidSaturate g e (pidAccumulate l e)
        (fdiv (pidRaw g e (pidAccumulate l e) (pidDerivative l e)) (2 ^ k)) lo hi k).2 := by
  have h := pidSaturate_integral_range (i := pidAccumulate l e) (sat32_range _) g e
    (fdiv (pidRaw g e (pidAccumulate l e) (pidDerivative l e)) (2 ^ k)) lo hi k
  exact toInt_ofInt32 h.1 h.2

theorem pidDerivative_range (l : LoopState) (e : Int) :
    -2 ^ 31 ≤ pidDerivative l e ∧ pidDerivative l e ≤ 2 ^ 31 - 1 := by
  unfold pidDerivative
  split
  · exact sat32_range _
  · have h1 := BitVec.le_toInt l.deriv
    have h2 := BitVec.toInt_lt (x := l.deriv)
    omega

/-- The derivative of a PID step, read back from its register (R232, R233). -/
theorem pidStep_deriv (n : Nat) (l : LoopState) (g : Gains) (e lo hi : Int) (k : Nat) :
    (pidStep n l g e lo hi k).1.deriv.toInt = pidDerivative l e :=
  toInt_ofInt32 (pidDerivative_range l e).1 (pidDerivative_range l e).2

/-- The error of a PID step, read back from its register, for an error that fits it (R241). -/
theorem pidStep_err {e : Int} (h : -2 ^ 31 ≤ e ∧ e ≤ 2 ^ 31 - 1) (n : Nat) (l : LoopState) (g : Gains) (lo hi : Int)
    (k : Nat) : (pidStep n l g e lo hi k).1.err.toInt = e := toInt_ofInt32 h.1 h.2

/-- The error at the latest derivative sample, read back from its register (R233, R241). -/
theorem pidStep_errPrev {e : Int} (h : -2 ^ 31 ≤ e ∧ e ≤ 2 ^ 31 - 1) (n : Nat) (l : LoopState) (g : Gains) (lo hi : Int)
    (k : Nat) : (pidStep n l g e lo hi k).1.errPrev.toInt = pidSampleErr l e := by
  have h1 := BitVec.le_toInt l.errPrev
  have h2 := BitVec.toInt_lt (x := l.errPrev)
  have : -2 ^ 31 ≤ pidSampleErr l e ∧ pidSampleErr l e ≤ 2 ^ 31 - 1 := by
    unfold pidSampleErr
    split <;> omega
  exact toInt_ofInt32 this.1 this.2

/-- The decimation phase after a PID step (R232). -/
theorem pidStep_dcount {n : Nat} (h : 1 ≤ n ∧ n ≤ 255) (l : LoopState) (g : Gains) (e lo hi : Int) (k : Nat) :
    (pidStep n l g e lo hi k).1.dcount.toNat = (l.dcount.toNat + 1) % n := by
  have := Nat.mod_lt (l.dcount.toNat + 1) (show 0 < n by omega)
  show (BitVec.ofNat 8 _).toNat = _
  rw [BitVec.toNat_ofNat, Nat.mod_eq_of_lt (by omega)]

/-- The decimation phase stays in [0, N_D) (R40). -/
theorem pidStep_good {p : Params} (h : p.Valid) (l : LoopState) (g : Gains) (e lo hi : Int) (k : Nat) :
    (pidStep p.nD l g e lo hi k).1.Good p := by
  show _ < _
  rw [pidStep_dcount h.nD]
  exact Nat.mod_lt _ h.nD.1

theorem zero_good {p : Params} (h : p.Valid) : LoopState.zero.Good p := h.nD.1

/-- The position error is within half a rotation (R231). -/
theorem positionError_range {s : State} (h : s.params.Valid) :
    -16384 ≤ positionError s ∧ positionError s ≤ 16383 := by
  have := h.ppr
  have := smod_range ((s.posSp.toNat : Int) - (s.trk.abs.toNat : Int)) (m := (s.params.ppr : Int)) (by omega)
  unfold positionError
  omega

/-- The current setpoint is within the limit of the run (R230). -/
theorem runPositionLoop_range (k : Nat) (s : State) :
    -(k : Int) ≤ (runPositionLoop k s).2 ∧ (runPositionLoop k s).2 ≤ k :=
  pidStep_output_range (by omega) _ _ _ _ _

/-- The duty is in [0, DUTY_MAX] (R230). -/
theorem runCurrentLoop_range (up : Int) (s : State) :
    0 ≤ (runCurrentLoop up s).2 ∧ (runCurrentLoop up s).2 ≤ s.params.dutyMax :=
  pidStep_output_range (by omega) _ _ _ _ _

theorem actOf_driveOf (d : Dir) (duty : Half) : actOf (driveOf d) duty = .drive d duty .signMagnitude := by
  cases d <;> rfl

theorem driveOf_ne_off (d : Dir) : driveOf d ≠ .off := by cases d <;> decide

/-- A run of the loops leaves the actuation in its ranges, and OUT in agreement with it (R32, R40). -/
theorem runLoops_goodDrive {s : State} (h : s.params.Valid) {k : Nat} (hk : k ≤ s.params.posOutLimit) :
    (runLoops k s).GoodDrive := by
  have hp := runPositionLoop_range k s
  have hc := runCurrentLoop_range (runPositionLoop k s).2 s
  have := h.posOutLimit
  have := h.dutyMax
  refine ⟨?_, ?_, fun h' => absurd h' (driveOf_ne_off _), ?_⟩
  · rw [runLoops_curSp, runLoops_params, toInt_ofInt16 (by omega) (by omega)]
    omega
  · have := toNat_ofInt16 hc.1 (by omega)
    rw [runLoops_duty, runLoops_params]
    omega
  · rw [runLoops_drive, runLoops_duty, actOf_driveOf, runLoops_out]

/-- SAFE_OFF leaves the actuation in its ranges, and OUT in agreement with it (R133). -/
theorem safeOff_goodDrive (s : State) : (safeOff s).GoodDrive := by
  refine ⟨?_, Nat.zero_le _, fun _ => ⟨rfl, rfl⟩, rfl⟩
  rw [safeOff_curSp]
  simp

end Sys2Proof.Machine
end

