-- ==== Sys2Proof/Laws/Decode.lean ====
section
/-! SUPPORT. The fields of a BUS word and of the words the encoder writes (30_encoding.md R80). -/

namespace Sys2Proof

theorem busIsWrite_eq (w : BusWord) : busIsWrite w = decide (2 ^ 24 ≤ w.toNat) := BitVec.msb_eq_decide w

theorem busAddr_toNat (w : BusWord) : (busAddr w).toNat = w.toNat / 2 ^ 8 % 2 ^ 16 := by
  unfold busAddr
  rw [BitVec.extractLsb'_toNat, Nat.shiftRight_eq_div_pow]

theorem busData_toNat (w : BusWord) : (busData w).toNat = w.toNat % 2 ^ 8 := by
  unfold busData
  rw [BitVec.extractLsb'_toNat, Nat.shiftRight_eq_div_pow]
  omega

theorem busWord_toNat (b : Bool) (a : Addr) (d : Byte) :
    (busWord b a d).toNat = (if b then 2 ^ 24 else 0) + a.toNat * 2 ^ 8 + d.toNat := by
  unfold busWord
  rw [BitVec.toNat_ofNat]
  have := a.isLt
  have := d.isLt
  cases b <;> simp <;> omega

@[simp] theorem busIsWrite_busWord (b : Bool) (a : Addr) (d : Byte) : busIsWrite (busWord b a d) = b := by
  rw [busIsWrite_eq, busWord_toNat]
  have := a.isLt
  have := d.isLt
  cases b <;> simp <;> omega

@[simp] theorem busAddr_busWord (b : Bool) (a : Addr) (d : Byte) : busAddr (busWord b a d) = a := by
  apply BitVec.eq_of_toNat_eq
  rw [busAddr_toNat, busWord_toNat]
  have := a.isLt
  have := d.isLt
  cases b <;> simp <;> omega

@[simp] theorem busData_busWord (b : Bool) (a : Addr) (d : Byte) : busData (busWord b a d) = d := by
  apply BitVec.eq_of_toNat_eq
  rw [busData_toNat, busWord_toNat]
  have := a.isLt
  have := d.isLt
  cases b <;> simp <;> omega

/-- A BUS word is the word of its fields. -/
theorem busWord_fields (w : BusWord) : busWord (busIsWrite w) (busAddr w) (busData w) = w := by
  apply BitVec.eq_of_toNat_eq
  rw [busWord_toNat, busIsWrite_eq, busAddr_toNat, busData_toNat]
  have := w.isLt
  by_cases h : 2 ^ 24 ≤ w.toNat
  · rw [decide_eq_true h, if_pos rfl]; omega
  · rw [decide_eq_false h, if_neg Bool.false_ne_true]; omega

/-- Decoding a written word of W and the fields. -/
theorem decode_busWord (b : Bool) (a : Addr) (d : Byte) :
    decode (.bus (busWord b a d)) = if b then decodeWrite a d else .r a d := by
  simp [decode, decodeBus]

/-- A write to an address above 7 is the catch-all row (R107). -/
theorem decodeWrite_unmapped {a : Addr} (h : 8 ≤ a.toNat) (d : Byte) : decodeWrite a d = .wUnmapped a d := by
  unfold decodeWrite
  split <;> first | omega | rfl

/-- A mode byte without a mode is the catch-all row (R138). -/
theorem decodeMode_unrecognized {b : Byte} (h : recognizedMode b = false) : decodeMode b = .modeUnrecognized b := by
  unfold decodeMode
  split
  · rw [show b = 0 from BitVec.eq_of_toNat_eq ‹_›] at h; simp [recognizedMode] at h
  · rw [show b = 1 from BitVec.eq_of_toNat_eq ‹_›] at h; simp [recognizedMode] at h
  · rw [show b = 3 from BitVec.eq_of_toNat_eq ‹_›] at h; simp [recognizedMode] at h
  · rw [show b = 255 from BitVec.eq_of_toNat_eq ‹_›] at h; simp [recognizedMode] at h
  · rfl

end Sys2Proof
end

