-- ==== Sys2Proof/Laws/Ops.lean ====
section
/-! SUPPORT. Everything a shared operation can do, said once: the case lemmas that later proofs cite instead of
unfolding the operations. -/

namespace Sys2Proof.Machine

/-- SAFE_OFF is one record update (R133). -/
theorem safeOff_eq (s : State) :
    safeOff s =
      { s with
        out := { s.out with act := .disable }, drive := .off, duty := 0, curSp := 0
        ploop := .zero, cloop := .zero } := rfl

/-- A fault writes its code and the saturating count, nothing else (R300). -/
theorem raiseFault_eq (f : FaultName) (s : State) :
    raiseFault f s = { s with lastFault := faultCode f, faultCount := bumpCount s.faultCount } := rfl

/-- The count saturates at 255 (R300). -/
theorem bumpCount_toNat (c : Byte) : (bumpCount c).toNat = min (c.toNat + 1) 255 := by
  unfold bumpCount
  rw [BitVec.toNat_ofNat]
  omega

/-- A commit succeeds and replaces CMD, or records the fault; PEND is zeroed either way (R110). -/
theorem commit_cases (s : State) :
    (commitSucceeds s = true ∧ commit s = { s with cmd := s.pend, cmdFresh := true, pend := .zero }) ∨
    (commitSucceeds s = false ∧
      commit s = { s with lastFault := 1, faultCount := bumpCount s.faultCount, pend := .zero }) := by
  unfold commit
  cases h : commitSucceeds s
  · exact .inr ⟨rfl, rfl⟩
  · exact .inl ⟨rfl, rfl⟩

/-- The four outcomes of the exit checks (R131). -/
theorem exitChecks_cases (m : Byte) (s : State) :
    exitChecks m s = s ∨ exitChecks m s = calAbort s ∨ exitChecks m s = profDiscard s ∨
      exitChecks m s = profDiscard (calAbort s) := by
  unfold exitChecks
  dsimp only
  split <;> split <;> simp

/-- A mode byte selects exactly one branch (R90, R132). -/
theorem dispatch_cases (m : Byte) (fresh : Bool) (s : State) :
    (m = 0 ∧ dispatch m fresh s = modeIdle s) ∨
    (m = 1 ∧ dispatch m fresh s = modeCalibrate s) ∨
    (m = 3 ∧ dispatch m fresh s = modeWalkForward fresh s) ∨
    (m = 255 ∧ dispatch m fresh s = modePanicStop s) ∨
    ((m ≠ 0 ∧ m ≠ 1 ∧ m ≠ 3 ∧ m ≠ 255) ∧ dispatch m fresh s = modeUnrecognized s) := by
  unfold dispatch
  split
  · exact .inl ⟨BitVec.eq_of_toNat_eq ‹_›, rfl⟩
  · exact .inr (.inl ⟨BitVec.eq_of_toNat_eq ‹_›, rfl⟩)
  · exact .inr (.inr (.inl ⟨BitVec.eq_of_toNat_eq ‹_›, rfl⟩))
  · exact .inr (.inr (.inr (.inl ⟨BitVec.eq_of_toNat_eq ‹_›, rfl⟩)))
  · rename_i h0 h1 h3 h255
    exact .inr (.inr (.inr (.inr ⟨⟨fun h => h0 (by rw [h]; rfl), fun h => h1 (by rw [h]; rfl),
      fun h => h3 (by rw [h]; rfl), fun h => h255 (by rw [h]; rfl)⟩, rfl⟩)))

/-- WALK_BRANCH rejects, completes or goes on, from the state itself or from the derived profile (R200). -/
theorem walkBranch_cases (fresh : Bool) (s : State) :
    ((fresh = true ∨ s.prof.active = false) ∧ degenerate s = true ∧ walkBranch fresh s = profReject s) ∨
    ((fresh = true ∨ s.prof.active = false) ∧ degenerate s = false ∧
      walkBranch fresh s = walkSegment (profDerive s)) ∨
    (fresh = false ∧ s.prof.active = true ∧ walkBranch fresh s = walkSegment s) := by
  unfold walkBranch
  cases fresh <;> cases h : s.prof.active <;> cases h' : degenerate s <;> simp

/-- A segment completes when its time is up and follows the profile before (R200, R206). -/
theorem walkSegment_cases (s : State) :
    (s.prof.dur.toNat ≤ segmentTime s ∧ walkSegment s = profComplete s) ∨
    (segmentTime s < s.prof.dur.toNat ∧
      walkSegment s = runLoops s.params.posOutLimit { s with posSp := profileSetpoint s }) := by
  unfold walkSegment
  by_cases h : segmentTime s ≥ s.prof.dur.toNat
  · exact .inl ⟨h, if_pos h⟩
  · exact .inr ⟨by omega, if_neg h⟩

/-- CAL_BRANCH enters, or runs the step that CAL.step names (R161). -/
theorem calBranch_cases (s : State) :
    ((s.cal.flag = false ∨ s.cal.step.toNat = 0 ∨ 6 ≤ s.cal.step.toNat) ∧ calBranch s = calEnter s) ∨
    (s.cal.flag = true ∧ s.cal.step = 1 ∧ calBranch s = calProbe s) ∨
    (s.cal.flag = true ∧ s.cal.step = 2 ∧ calBranch s = calSweep s) ∨
    (s.cal.flag = true ∧ s.cal.step = 3 ∧ calBranch s = calResetDetector s) ∨
    (s.cal.flag = true ∧ s.cal.step = 4 ∧ calBranch s = calSearch s) ∨
    (s.cal.flag = true ∧ s.cal.step = 5 ∧ calBranch s = calExit s) := by
  unfold calBranch
  cases hf : s.cal.flag
  · exact .inl ⟨.inl rfl, rfl⟩
  · rw [if_pos rfl]
    split
    · exact .inr (.inl ⟨rfl, BitVec.eq_of_toNat_eq ‹_›, rfl⟩)
    · exact .inr (.inr (.inl ⟨rfl, BitVec.eq_of_toNat_eq ‹_›, rfl⟩))
    · exact .inr (.inr (.inr (.inl ⟨rfl, BitVec.eq_of_toNat_eq ‹_›, rfl⟩)))
    · exact .inr (.inr (.inr (.inr (.inl ⟨rfl, BitVec.eq_of_toNat_eq ‹_›, rfl⟩))))
    · exact .inr (.inr (.inr (.inr (.inr ⟨rfl, BitVec.eq_of_toNat_eq ‹_›, rfl⟩))))
    · rename_i h1 h2 h3 h4 h5
      refine .inl ⟨.inr ?_, rfl⟩
      have := h1; have := h2; have := h3; have := h4; have := h5
      simp only [imp_false] at *
      omega

/-- DEBOUNCE writes only the debounce window of CAL (R166). -/
theorem debounceMark_eq (s : State) :
    ∃ a w, debounceMark s = { s with cal := { s.cal with dbActive := a, dbStart := w } } := by
  unfold debounceMark
  split
  · split
    · exact ⟨s.cal.dbActive, s.cal.dbStart, rfl⟩
    · exact ⟨_, _, rfl⟩
  · exact ⟨_, s.cal.dbStart, rfl⟩

/-- CAL_PROBE detects the stop, times out, or goes on (R165). -/
theorem calProbe_cases (s : State) :
    (debounceDone (debounceMark s) = true ∧ calProbe s = hardStop (debounceMark s)) ∨
    (debounceDone (debounceMark s) = false ∧ calTimedOut (debounceMark s) = true ∧
      calProbe s = calTimeout (debounceMark s)) ∨
    (debounceDone (debounceMark s) = false ∧ calTimedOut (debounceMark s) = false ∧
      calProbe s = runLoops (debounceMark s).params.calPosOutLimit (rampDown (debounceMark s))) := by
  unfold calProbe
  cases h : debounceDone (debounceMark s) <;> cases h' : calTimedOut (debounceMark s) <;> simp [h, h']

/-- CAL_SEARCH sees the edge, times out, or goes on (R170). -/
theorem calSearch_cases (s : State) :
    (s.tickIn.hallDet = true ∧ calSearch s = edgeFound s) ∨
    (s.tickIn.hallDet = false ∧ calTimedOut s = true ∧ calSearch s = calTimeout s) ∨
    (s.tickIn.hallDet = false ∧ calTimedOut s = false ∧
      calSearch s = runLoops s.params.calPosOutLimit (rampDown s)) := by
  unfold calSearch
  cases h : s.tickIn.hallDet <;> cases h' : calTimedOut s <;> simp

/-- The ramp holds, or moves one pulse and marks the window (R162, R165, R170). -/
theorem rampDown_cases (s : State) :
    (gateFires s = true ∧ rampDown s = pulseDown (gateMark s)) ∨ (gateFires s = false ∧ rampDown s = s) := by
  unfold rampDown
  cases h : gateFires s <;> simp

/-- A sample is stored while the buffer has room (R168). -/
theorem takeSample_cases (s : State) :
    (s.cal.scount.toNat < s.params.sampleN ∧
      takeSample s =
        { s with
          cal :=
            { s.cal with
              samples := s.cal.samples.set s.cal.scount.toNat s.tickIn.hallAdc
              scount := BitVec.ofNat 8 (s.cal.scount.toNat + 1) } }) ∨
    (s.params.sampleN ≤ s.cal.scount.toNat ∧ takeSample s = s) := by
  unfold takeSample
  by_cases h : s.cal.scount.toNat < s.params.sampleN
  · exact .inl ⟨h, if_pos h⟩
  · exact .inr ⟨by omega, if_neg h⟩

/-- The sweep arrives, moves one pulse and samples, or waits for the next window (R168). -/
theorem sweepMove_cases (s : State) :
    (s.posSp = sweepTarget s ∧
      sweepMove s = { s with cal := { s.cal with step := 3, stepStart := s.tickIn.now } }) ∨
    (s.posSp ≠ sweepTarget s ∧ gateFires s = true ∧ sweepMove s = takeSample (pulseUp (gateMark s))) ∨
    (s.posSp ≠ sweepTarget s ∧ gateFires s = false ∧ sweepMove s = s) := by
  unfold sweepMove
  by_cases h : s.posSp = sweepTarget s
  · exact .inl ⟨h, if_pos h⟩
  · rw [if_neg h]
    cases h' : gateFires s
    · exact .inr (.inr ⟨h, rfl, rfl⟩)
    · exact .inr (.inl ⟨h, rfl, rfl⟩)

/-- CAL_ENTER is a run of the loops from the entered state (R163). -/
theorem calEnter_eq (s : State) :
    calEnter s =
      runLoops s.params.calPosOutLimit
        { s with
          savedP := s.gainsP, savedC := s.gainsC
          gainsP := s.params.calGainsP, gainsC := s.params.calGainsC
          cal := enteredCal s, posSp := s.trk.abs, ploop := .zero, cloop := .zero } := rfl

/-- CAL_RESET_DETECTOR is a run of the loops after the detector reset (R169). -/
theorem calResetDetector_eq (s : State) :
    calResetDetector s =
      runLoops s.params.calPosOutLimit
        { s with
          out := { s.out with hallReset := true }
          cal := { s.cal with step := 4, stepStart := s.tickIn.now } } := rfl

/-- Where the next step comes from: held transactions first, then placed events, then a free draw (R7, R311). -/
theorem fetch_cases (s : State) :
    (∃ w ws, s.held = w :: ws ∧ fetch s = (.bus w, { s with held := ws })) ∨
    (∃ e es, s.held = [] ∧ s.events = e :: es ∧ fetch s = takeEvent e { s with events := es }) ∨
    (s.held = [] ∧ s.events = [] ∧ fetch s = takeEvent (Config.event s.draws) { s with draws := s.draws + 1 }) := by
  unfold fetch
  cases hh : s.held with
  | cons w ws => exact .inl ⟨w, ws, rfl, rfl⟩
  | nil =>
    cases he : s.events with
    | cons e es => exact .inr (.inl ⟨e, es, rfl, rfl, rfl⟩)
    | nil => exact .inr (.inr ⟨rfl, rfl, rfl⟩)

end Sys2Proof.Machine
end

