-- ==== Sys2Proof/Laws/Frame.lean ====
section
/-! SUPPORT. What no mode branch touches (41_dispatcher.md): the bus port's state, the tick's inputs, the telemetry image
and the model's own fields; and of CMD only the mode (R137). -/

namespace Sys2Proof.Machine

/-- `t` differs from `s` only in what a mode branch may write. -/
structure BranchFrame (s t : State) : Prop where
  pend : t.pend = s.pend
  cmd : t.cmd = { s.cmd with mode := t.cmd.mode }
  cmdFresh : t.cmdFresh = s.cmdFresh
  lastEnc : t.lastEnc = s.lastEnc
  lastCur : t.lastCur = s.lastCur
  snap : t.snap = s.snap
  held : t.held = s.held
  tickIn : t.tickIn = s.tickIn
  resp : t.resp = s.resp
  tickFresh : t.tickFresh = s.tickFresh
  params : t.params = s.params
  events : t.events = s.events
  draws : t.draws = s.draws

theorem BranchFrame.rfl {s : State} : BranchFrame s s := by constructor <;> rfl

theorem BranchFrame.trans {s t u : State} (h : BranchFrame s t) (h' : BranchFrame t u) : BranchFrame s u where
  pend := h'.pend.trans h.pend
  cmd := by rw [h'.cmd, h.cmd]
  cmdFresh := h'.cmdFresh.trans h.cmdFresh
  lastEnc := h'.lastEnc.trans h.lastEnc
  lastCur := h'.lastCur.trans h.lastCur
  snap := h'.snap.trans h.snap
  held := h'.held.trans h.held
  tickIn := h'.tickIn.trans h.tickIn
  resp := h'.resp.trans h.resp
  tickFresh := h'.tickFresh.trans h.tickFresh
  params := h'.params.trans h.params
  events := h'.events.trans h.events
  draws := h'.draws.trans h.draws

theorem safeOff_frame (s : State) : BranchFrame s (safeOff s) := by constructor <;> rfl
theorem runLoops_frame (k : Nat) (s : State) : BranchFrame s (runLoops k s) := by constructor <;> rfl
theorem calAbort_frame (s : State) : BranchFrame s (calAbort s) := by constructor <;> rfl
theorem profDiscard_frame (s : State) : BranchFrame s (profDiscard s) := by constructor <;> rfl
theorem calTimeout_frame (s : State) : BranchFrame s (calTimeout s) := by constructor <;> simp
theorem hardStop_frame (s : State) : BranchFrame s (hardStop s) := by constructor <;> simp
theorem edgeFound_frame (s : State) : BranchFrame s (edgeFound s) := by constructor <;> simp
theorem calExit_frame (s : State) : BranchFrame s (calExit s) := by constructor <;> simp
theorem profReject_frame (s : State) : BranchFrame s (profReject s) := by constructor <;> simp
theorem profComplete_frame (s : State) : BranchFrame s (profComplete s) := by constructor <;> simp
theorem profDerive_frame (s : State) : BranchFrame s (profDerive s) := by constructor <;> rfl
theorem modeUnrecognized_frame (s : State) : BranchFrame s (modeUnrecognized s) := by constructor <;> rfl
theorem setPosSp_frame (s : State) (v : Half) : BranchFrame s { s with posSp := v } := by constructor <;> rfl
theorem setCal_frame (s : State) (c : Calibration) : BranchFrame s { s with cal := c } := by constructor <;> rfl

theorem calEnter_frame (s : State) : BranchFrame s (calEnter s) := by constructor <;> rfl

theorem calResetDetector_frame (s : State) : BranchFrame s (calResetDetector s) := by constructor <;> rfl

theorem debounceMark_frame (s : State) : BranchFrame s (debounceMark s) := by
  obtain ⟨a, w, h⟩ := debounceMark_eq s
  exact h ▸ setCal_frame s _

theorem rampDown_frame (s : State) : BranchFrame s (rampDown s) := by
  obtain ⟨-, h⟩ | ⟨-, h⟩ := rampDown_cases s
  · rw [h]; constructor <;> rfl
  · rw [h]; exact .rfl

theorem takeSample_frame (s : State) : BranchFrame s (takeSample s) := by
  obtain ⟨-, h⟩ | ⟨-, h⟩ := takeSample_cases s
  · rw [h]; exact setCal_frame s _
  · rw [h]; exact .rfl

theorem sweepMove_frame (s : State) : BranchFrame s (sweepMove s) := by
  obtain ⟨-, h⟩ | ⟨-, -, h⟩ | ⟨-, -, h⟩ := sweepMove_cases s
  · rw [h]; exact setCal_frame s _
  · rw [h]
    have : BranchFrame s (pulseUp (gateMark s)) := by constructor <;> rfl
    exact this.trans (takeSample_frame _)
  · rw [h]; exact .rfl

theorem calProbe_frame (s : State) : BranchFrame s (calProbe s) := by
  obtain ⟨-, h⟩ | ⟨-, -, h⟩ | ⟨-, -, h⟩ := calProbe_cases s <;> rw [h] <;> refine (debounceMark_frame s).trans ?_
  · exact hardStop_frame _
  · exact calTimeout_frame _
  · exact (rampDown_frame _).trans (runLoops_frame _ _)

theorem calSearch_frame (s : State) : BranchFrame s (calSearch s) := by
  obtain ⟨-, h⟩ | ⟨-, -, h⟩ | ⟨-, -, h⟩ := calSearch_cases s <;> rw [h]
  · exact edgeFound_frame s
  · exact calTimeout_frame s
  · exact (rampDown_frame s).trans (runLoops_frame _ _)

theorem calBranch_frame (s : State) : BranchFrame s (calBranch s) := by
  obtain ⟨-, h⟩ | ⟨-, -, h⟩ | ⟨-, -, h⟩ | ⟨-, -, h⟩ | ⟨-, -, h⟩ | ⟨-, -, h⟩ := calBranch_cases s <;> rw [h]
  · exact calEnter_frame s
  · exact calProbe_frame s
  · exact (sweepMove_frame s).trans (runLoops_frame _ _)
  · exact calResetDetector_frame s
  · exact calSearch_frame s
  · exact calExit_frame s

theorem walkSegment_frame (s : State) : BranchFrame s (walkSegment s) := by
  obtain ⟨-, h⟩ | ⟨-, h⟩ := walkSegment_cases s <;> rw [h]
  · exact profComplete_frame s
  · exact (setPosSp_frame s _).trans (runLoops_frame _ _)

theorem walkBranch_frame (fresh : Bool) (s : State) : BranchFrame s (walkBranch fresh s) := by
  obtain ⟨-, -, h⟩ | ⟨-, -, h⟩ | ⟨-, -, h⟩ := walkBranch_cases fresh s <;> rw [h]
  · exact profReject_frame s
  · exact (profDerive_frame s).trans (walkSegment_frame _)
  · exact walkSegment_frame s

/-- Whatever the mode byte, phase 4 of a tick touches only what a mode branch may write (R132). -/
theorem dispatch_frame (m : Byte) (fresh : Bool) (s : State) : BranchFrame s (dispatch m fresh s) := by
  obtain ⟨-, h⟩ | ⟨-, h⟩ | ⟨-, h⟩ | ⟨-, h⟩ | ⟨-, h⟩ := dispatch_cases m fresh s <;> rw [h]
  · exact safeOff_frame s
  · exact calBranch_frame s
  · exact walkBranch_frame fresh s
  · exact safeOff_frame s
  · exact modeUnrecognized_frame s

theorem exitChecks_frame (m : Byte) (s : State) : BranchFrame s (exitChecks m s) := by
  obtain h | h | h | h := exitChecks_cases m s <;> rw [h]
  · exact .rfl
  · exact calAbort_frame s
  · exact profDiscard_frame s
  · exact (calAbort_frame s).trans (profDiscard_frame _)

/-- Everything a bus transaction does with the queues of the step: it leaves the held transactions and the placed events
as they are and reads neither, so it has the same effect whatever is held (R7, R68). -/
theorem bus_exec (w : BusWord) (s : State) : ∃ t,
    exec (decode (.bus w)) s = .next t ∧ t.held = s.held ∧ t.events = s.events ∧
      ∀ l, exec (decode (.bus w)) { s with held := l } = .next { t with held := l } := by
  show ∃ t, exec (decodeBus w) s = _ ∧ _ ∧ _ ∧ ∀ l, exec (decodeBus w) _ = _
  unfold decodeBus
  split
  · unfold decodeWrite
    split
    case h_8 =>
      refine ⟨commit s, rfl, ?_, ?_, fun l => ?_⟩
      · obtain ⟨-, h⟩ | ⟨-, h⟩ := commit_cases s <;> rw [h]
      · obtain ⟨-, h⟩ | ⟨-, h⟩ := commit_cases s <;> rw [h]
      · obtain ⟨c, h⟩ | ⟨c, h⟩ := commit_cases s <;> rw [h] <;>
          obtain ⟨c', h'⟩ | ⟨c', h'⟩ := commit_cases { s with held := l }
        · exact congrArg _ h'
        · exact absurd (c.symm.trans c') (by decide)
        · exact absurd (c.symm.trans c') (by decide)
        · exact congrArg _ h'
    all_goals exact ⟨_, rfl, rfl, rfl, fun _ => rfl⟩
  · exact ⟨_, rfl, rfl, rfl, fun _ => rfl⟩

/-- Phases 1 and 2 of a tick are one record update (R130). -/
theorem commandRead_eq (inp : TickIn) (s : State) :
    commandRead inp s =
      { s with
        tickIn := inp
        out := .default
        lastEnc := sampledEnc s.params inp
        lastCur := sampledCur inp
        trk := trackRaw s.params (sampledEnc s.params inp) s.trk
        tickFresh := s.cmdFresh
        cmdFresh := false } := rfl

/-- A tick: its phases in order (R130). -/
theorem tickStep_eq (inp : TickIn) (s : State) :
    tickStep inp s =
      publish (dispatch s.cmd.mode s.cmdFresh (exitChecks s.cmd.mode (commandRead inp s))) := rfl

/-- What phases 3 and 4 of a tick leave of the state that phases 1 and 2 made (R131, R132). -/
theorem tick_frame (inp : TickIn) (s : State) :
    BranchFrame (commandRead inp s)
      (dispatch s.cmd.mode s.cmdFresh (exitChecks s.cmd.mode (commandRead inp s))) :=
  (exitChecks_frame _ _).trans (dispatch_frame _ _ _)

end Sys2Proof.Machine
end

