-- ==== Sys2Proof/Laws/PerInstr.lean ====
section
/-! SUPPORT. Statements made per instruction: the encoder writes the bits that each row of spec/opcode_table.json fixes. -/

namespace Sys2Proof.Laws

/-- The bits of an encoded input, as a number. A tick has none (30_encoding.md R82). -/
def codeBits : Code → Nat
  | .bus w => w.toNat
  | .mode b => b.toNat
  | .tick _ => 0

/-- The field (high bit, low bit, value) that an instruction's row fixes, as the entry `fixed` of
spec/opcode_table.json gives it. -/
def fixedField : Instr → Option (Nat × Nat × Nat)
  | .wMode _ => some (24, 8, 65536)
  | .wTargetA _ => some (24, 8, 65537)
  | .wTargetB _ => some (24, 8, 65538)
  | .wTimeA _ => some (24, 8, 65539)
  | .wTimeB _ => some (24, 8, 65540)
  | .wNewData _ => some (24, 8, 65541)
  | .wChecksum _ => some (24, 8, 65542)
  | .wCommit _ => some (24, 8, 65543)
  | .wUnmapped _ _ => some (24, 24, 1)
  | .r _ _ => some (24, 24, 0)
  | .modeIdle => some (7, 0, 0)
  | .modeCalibrate => some (7, 0, 1)
  | .modeWalkForward => some (7, 0, 3)
  | .modePanicStop => some (7, 0, 255)
  | .modeUnrecognized _ => none
  | .tick _ => none

/-- The encoder writes the fixed field of the instruction's row. -/
def RowPattern.Statement (i : Instr) : Prop :=
  ∀ f, fixedField i = some f → codeBits (encode i) / 2 ^ f.2.1 % 2 ^ (f.1 + 1 - f.2.1) = f.2.2

/-- A BUS word whose bits [24:8] are W = 1 and an address. -/
theorem busWord_row (a : Addr) (d : Byte) :
    (busWord true a d).toNat / 2 ^ 8 % 2 ^ (24 + 1 - 8) = 2 ^ 16 + a.toNat := by
  rw [busWord_toNat, if_pos rfl]
  have := a.isLt
  have := d.isLt
  omega

/-- Bit 24 of a BUS word is W. -/
theorem busWord_write (b : Bool) (a : Addr) (d : Byte) :
    (busWord b a d).toNat / 2 ^ 24 % 2 ^ (24 + 1 - 24) = b.toNat := by
  rw [busWord_toNat]
  have := a.isLt
  have := d.isLt
  cases b <;> simp <;> omega

theorem RowPattern.wMode (d : Byte) : RowPattern.Statement (.wMode d) := by rintro _ ⟨⟩; exact busWord_row _ _
theorem RowPattern.wTargetA (d : Byte) : RowPattern.Statement (.wTargetA d) := by rintro _ ⟨⟩; exact busWord_row _ _
theorem RowPattern.wTargetB (d : Byte) : RowPattern.Statement (.wTargetB d) := by rintro _ ⟨⟩; exact busWord_row _ _
theorem RowPattern.wTimeA (d : Byte) : RowPattern.Statement (.wTimeA d) := by rintro _ ⟨⟩; exact busWord_row _ _
theorem RowPattern.wTimeB (d : Byte) : RowPattern.Statement (.wTimeB d) := by rintro _ ⟨⟩; exact busWord_row _ _
theorem RowPattern.wNewData (d : Byte) : RowPattern.Statement (.wNewData d) := by rintro _ ⟨⟩; exact busWord_row _ _
theorem RowPattern.wChecksum (d : Byte) : RowPattern.Statement (.wChecksum d) := by rintro _ ⟨⟩; exact busWord_row _ _
theorem RowPattern.wCommit (d : Byte) : RowPattern.Statement (.wCommit d) := by rintro _ ⟨⟩; exact busWord_row _ _
theorem RowPattern.wUnmapped (a : Addr) (d : Byte) : RowPattern.Statement (.wUnmapped a d) := by
  rintro _ ⟨⟩; exact busWord_write _ _ _
theorem RowPattern.r (a : Addr) (d : Byte) : RowPattern.Statement (.r a d) := by
  rintro _ ⟨⟩; exact busWord_write _ _ _
theorem RowPattern.modeIdle : RowPattern.Statement .modeIdle := by rintro _ ⟨⟩; rfl
theorem RowPattern.modeCalibrate : RowPattern.Statement .modeCalibrate := by rintro _ ⟨⟩; rfl
theorem RowPattern.modeWalkForward : RowPattern.Statement .modeWalkForward := by rintro _ ⟨⟩; rfl
theorem RowPattern.modePanicStop : RowPattern.Statement .modePanicStop := by rintro _ ⟨⟩; rfl
theorem RowPattern.modeUnrecognized (b : Byte) : RowPattern.Statement (.modeUnrecognized b) := by rintro _ ⟨⟩
theorem RowPattern.tick (inp : TickIn) : RowPattern.Statement (.tick inp) := by rintro _ ⟨⟩

end Sys2Proof.Laws
end

