-- ==== Sys2Proof/Tests/Slice0.lean ====
section
/-! SUPPORT. Tests on fixed values, each one step, with results taken from the tables of 95_test_vectors.md or worked out
by hand from the rule a comment names; the words are written out from 30_encoding.md R80, R84 and R90. -/

namespace Sys2Proof.Tests

open Sys2Proof.Machine

/-! Helpers -/

/-- The vector parameters VP of 95_test_vectors.md. -/
def vp : Params :=
  { ppr := 1024, tAd := 500
    normGainsP := { kp := 256, ki := 0, kd := 0 }, normGainsC := { kp := 256, ki := 0, kd := 0 }
    calGainsP := { kp := 128, ki := 0, kd := 0 }, calGainsC := { kp := 128, ki := 0, kd := 0 }
    sP := 8, sC := 8, posOutLimit := 1000, calPosOutLimit := 200, dutyMax := 1000, nD := 1
    calIThresh := 500, debounceMs := 400, searchOffset := 3, hallSensorIndex := 0, hallAdcChannel := 0
    sampleN := 4, validate := .default, calStepTimeoutMs := 0, tickPeriod := 10 }

/-- The state after reset under VP. -/
def s0 : State := State.resetWith vp

/-- A tick's input. -/
def inp (enc : Half) (cur now : Word) : TickIn := { enc := enc, cur := cur, hallDet := false, hallAdc := 0, now := now }

/-- What a step's next state shows, `none` where there is none. -/
def look {α : Type} (f : State → α) (o : Host.Outcome State Fault Refusal) : Option α :=
  match o with
  | .next t => some (f t)
  | _ => none

/-- A state with a command mode. -/
def inMode (m : Byte) : State := { s0 with cmd := { s0.cmd with mode := m } }

/-- A calibration in step `n`, begun at 0, with the setpoint at `sp` and the input `i`. -/
def calAt (n : Byte) (sp : Half) (i : TickIn) : State :=
  { inMode 1 with
    gainsP := vp.calGainsP, gainsC := vp.calGainsC, posSp := sp, tickIn := i, lastCur := sampledCur i
    cal := { s0.cal with flag := true, step := n } }

/-- The same with a timeout of `ms`. -/
def calTimed (ms : Nat) (n : Byte) (sp : Half) (i : TickIn) : State :=
  { calAt n sp i with params := { vp with calStepTimeoutMs := ms } }

/-- A walk tick at `now` with the command {3, 512, 2000}; the profile in progress, if any, began at 0 from 0. -/
def walkAt (active : Bool) (now : Word) : State :=
  { s0 with
    cmd := { s0.cmd with mode := 3, targetA := 0x02, targetB := 0x00, timeA := 0x07, timeB := 0xD0 }
    tickIn := inp 0 0 now
    prof := { active := active, startPos := 0, startTime := 0, dist := 512, dur := 2000, tad := 500 } }

/-- The same with a command whose time16 is `t`. -/
def walkTime (t : Half) : State :=
  { walkAt false 100 with cmd := { (walkAt false 100).cmd with timeA := hiByte t, timeB := loByte t } }

/-! Decoding: a word of every row, written out from the encoding tables -/

theorem test_decode_wMode : decodeTableWord 32 0b1_0000000000000000_00000011 = some (.wMode 3) := by decide
theorem test_decode_wTargetA : decodeTableWord 32 0b1_0000000000000001_00000010 = some (.wTargetA 2) := by decide
theorem test_decode_wTargetB : decodeTableWord 32 0b1_0000000000000010_01100100 = some (.wTargetB 100) := by decide
theorem test_decode_wTimeA : decodeTableWord 32 0b1_0000000000000011_00000111 = some (.wTimeA 7) := by decide
theorem test_decode_wTimeB : decodeTableWord 32 0b1_0000000000000100_11010000 = some (.wTimeB 0xD0) := by decide
theorem test_decode_wNewData : decodeTableWord 32 0b1_0000000000000101_10000000 = some (.wNewData 0x80) := by decide
theorem test_decode_wChecksum : decodeTableWord 32 0b1_0000000000000110_01011010 = some (.wChecksum 0x5A) := by decide
theorem test_decode_wCommit : decodeTableWord 32 0b1_0000000000000111_01000010 = some (.wCommit 0x42) := by decide
theorem test_decode_wUnmapped :
    decodeTableWord 32 0b1_0000000000001000_00000001 = some (.wUnmapped 8 1) ∧
    decodeTableWord 32 0x1FFFFFF = some (.wUnmapped 0xFFFF 0xFF) := by decide
theorem test_decode_r :
    decodeTableWord 32 0b0_0000000000100001_00000000 = some (.r 0x21 0) ∧
    decodeTableWord 32 0x0000705 = some (.r 7 5) := by decide
theorem test_decode_modes :
    decodeTableWord 8 0 = some .modeIdle ∧ decodeTableWord 8 1 = some .modeCalibrate ∧
    decodeTableWord 8 3 = some .modeWalkForward ∧ decodeTableWord 8 255 = some .modePanicStop ∧
    decodeTableWord 8 2 = some (.modeUnrecognized 2) ∧ decodeTableWord 8 254 = some (.modeUnrecognized 254) := by decide
theorem test_decode_tick : decodeTableWord 0 0 = some (.tick (inp 0 0 0)) := by decide
theorem test_decode_refuses :
    codeOfTable 32 0x2000000 = .error .busBitAbove24 ∧ codeOfTable 8 256 = .error .modeBitAbove7 ∧
    codeOfTable 0 1 = .error .tickBitSet ∧ codeOfTable 40 0 = .error .tooLong := by decide

/-! WellFormed: an ill-formed term for each check -/

theorem test_wf_refuses_writable :
    (Instr.wUnmapped 0 9).wf = false ∧ (Instr.wUnmapped 7 9).wf = false ∧ (Instr.wUnmapped 8 9).wf = true := by decide
theorem test_wf_refuses_recognized :
    (Instr.modeUnrecognized 0).wf = false ∧ (Instr.modeUnrecognized 1).wf = false ∧
    (Instr.modeUnrecognized 3).wf = false ∧ (Instr.modeUnrecognized 255).wf = false ∧
    (Instr.modeUnrecognized 2).wf = true := by decide
theorem test_vp_valid : vp.Valid := by constructor <;> decide
theorem test_params_refuse_ppr : ¬{ vp with ppr := 1 }.Valid ∧ ¬{ vp with ppr := 32769 }.Valid :=
  ⟨fun h => absurd h.ppr (by decide), fun h => absurd h.ppr (by decide)⟩
theorem test_params_refuse_tAd : ¬{ vp with tAd := 32768 }.Valid := fun h => absurd h.tAd (by decide)
theorem test_params_refuse_shifts : ¬{ vp with sP := 17 }.Valid ∧ ¬{ vp with sC := 17 }.Valid :=
  ⟨fun h => absurd h.sP (by decide), fun h => absurd h.sC (by decide)⟩
theorem test_params_refuse_limits :
    ¬{ vp with posOutLimit := 32768 }.Valid ∧ ¬{ vp with calPosOutLimit := 1001 }.Valid ∧
    ¬{ vp with dutyMax := 0 }.Valid :=
  ⟨fun h => absurd h.posOutLimit (by decide), fun h => absurd h.calPosOutLimit (by decide),
    fun h => absurd h.dutyMax (by decide)⟩
theorem test_params_refuse_loops : ¬{ vp with nD := 0 }.Valid ∧ ¬{ vp with calIThresh := 32768 }.Valid :=
  ⟨fun h => absurd h.nD (by decide), fun h => absurd h.calIThresh (by decide)⟩
theorem test_params_refuse_calibration :
    ¬{ vp with debounceMs := 399 }.Valid ∧ ¬{ vp with searchOffset := 1024 }.Valid ∧ ¬{ vp with sampleN := 256 }.Valid :=
  ⟨fun h => absurd h.debounceMs (by decide), fun h => absurd h.searchOffset (by decide),
    fun h => absurd h.sampleN (by decide)⟩
theorem test_params_refuse_sensors :
    ¬{ vp with hallSensorIndex := 3 }.Valid ∧ ¬{ vp with hallAdcChannel := 256 }.Valid ∧
    ¬{ vp with calStepTimeoutMs := 2 ^ 32 }.Valid :=
  ⟨fun h => absurd h.hallSensorIndex (by decide), fun h => absurd h.hallAdcChannel (by decide),
    fun h => absurd h.calStepTimeoutMs (by decide)⟩

/-! One step of each instruction; the vector's id in 95_test_vectors.md stands in the comment -/

/-- M1. -/
theorem test_wMode : look (fun t => (t.pend.mode, t.cmd.mode)) (exec (.wMode 3) s0) = some (3, 0) := by decide
/-- M2: target_a is the high byte. -/
theorem test_wTargetA : look (fun t => target16 t.pend) (exec (.wTargetA 2) s0) = some 512 := by decide
/-- R102: target_b is the low byte. -/
theorem test_wTargetB : look (fun t => target16 t.pend) (exec (.wTargetB 0x64) s0) = some 100 := by decide
/-- M4: time_a is the high byte. -/
theorem test_wTimeA : look (fun t => time16 t.pend) (exec (.wTimeA 7) s0) = some 1792 := by decide
/-- M4: time_b is the low byte. -/
theorem test_wTimeB : look (fun t => time16 t.pend) (exec (.wTimeB 0xD0) s0) = some 208 := by decide
/-- M5: every nonzero byte stores 1. -/
theorem test_wNewData : look (·.pend.newDataFlag) (exec (.wNewData 0x80) s0) = some true := by decide
/-- M6. -/
theorem test_wNewData_zero :
    look (·.pend.newDataFlag) (exec (.wNewData 0) { s0 with pend := { s0.pend with newDataFlag := true } }) =
      some false := by decide
/-- M7. -/
theorem test_wChecksum : look (·.pend.checksum) (exec (.wChecksum 0x5A) s0) = some 0x5A := by decide
/-- M11. -/
theorem test_wCommit :
    look (fun t => (t.cmd.mode, t.cmdFresh, t.pend.mode, t.faultCount))
      (exec (.wCommit 0x42) { s0 with pend := { s0.pend with mode := 3 } }) = some (3, true, 0, 0) := by decide
/-- M13: VALIDATE refuses. -/
theorem test_wCommit_refused :
    look (fun t => (t.cmd.mode, t.cmdFresh, t.lastFault, t.faultCount))
      (exec (.wCommit 0)
        { s0 with params := { vp with validate := .only [] }, pend := { s0.pend with mode := 3 } }) =
      some (0, false, 1, 1) := by decide
/-- M8: the gains are read-only. -/
theorem test_wUnmapped : exec (.wUnmapped 0x0030 0xFF) s0 = .next s0 := rfl
/-- M16: POS_KP reads 0x01, 0x00 at reset. -/
theorem test_r_gain :
    look (·.resp) (exec (.r 0x0030 0) s0) = some (some 1) ∧ look (·.resp) (exec (.r 0x0031 0) s0) = some (some 0) := by
  decide
/-- M20: CUR_SP = -1, POS_SP = 1023, DRIVE = BWD; M19: an unmapped address reads 0x00. -/
theorem test_r_telemetry :
    let s := { s0 with snap := { s0.snap with curSp := -1, posSp := 1023, drive := .bwd } }
    ([0x26, 0x27, 0x24, 0x25, 0x15, 0x100].map fun a => look (·.resp) (exec (.r a 0) s)) =
      [some (some 0xFF), some (some 0xFF), some (some 3), some (some 0xFF), some (some 2), some (some 0)] := by decide
/-- R133, R134: Idle switches off and keeps the setpoint. -/
theorem test_modeIdle :
    look (fun t => (t.out.act, t.drive, t.duty, t.posSp))
      (exec .modeIdle { s0 with drive := .fwd, duty := 45, posSp := 85, out := { s0.out with hallReset := true } }) =
      some (.disable, .off, 0, 85) := by decide
/-- CA1: the calibration is entered at now = 5003 with abs = 100. -/
theorem test_modeCalibrate_enters :
    look (fun t => (t.cal.step, t.posSp, t.cal.gateWin, t.gainsP.kp, t.savedP.kp, t.out.act))
      (exec .modeCalibrate { inMode 1 with tickIn := inp 100 0 5003, trk := { abs := 100, prevRaw := 100 } }) =
      some (1, 100, 500, 128, 256, .drive .fwd 0 .signMagnitude) := by decide
/-- CA10: the sensor timeout goes to PanicStop. -/
theorem test_modeCalibrate_timeout :
    look (fun t => (t.lastFault, t.cmd.mode, t.cal.step, t.posSp)) (exec .modeCalibrate (calTimed 1000 1 1023 (inp 0 0 1000))) =
      some (4, 255, 0, 1023) := by decide
/-- PR10, W7: the profile's midpoint drives the cascade. -/
theorem test_modeWalkForward :
    look (fun t => (t.posSp, t.curSp, t.out.act)) (exec .modeWalkForward (walkAt true 250)) =
      some (21, 21, .drive .fwd 21 .signMagnitude) := by decide
/-- PR11: time16 = 2 * T_AD is degenerate. -/
theorem test_modeWalkForward_rejects :
    look (fun t => (t.lastFault, t.faultCount, t.cmd.mode, t.prof.active)) (exec .modeWalkForward (walkTime 1000)) =
      some (3, 1, 0, false) := by decide
/-- DS3. -/
theorem test_modePanicStop :
    look (fun t => (t.out.act, t.cmd.mode, t.faultCount)) (exec .modePanicStop (inMode 255)) = some (.disable, 255, 0) := by
  decide
/-- DS7: the count saturates. -/
theorem test_modeUnrecognized :
    look (fun t => (t.lastFault, t.faultCount, t.cmd.mode))
      (exec (.modeUnrecognized 9) { inMode 9 with faultCount := 255 }) = some (2, 255, 0) := by decide
/-- DS2: the tracker runs in Idle, and the telemetry is published. -/
theorem test_tick_idle :
    look (fun t => (t.trk.abs, t.snap.abs, t.out.act)) (exec (.tick (inp 300 0 0)) s0) = some (300, 300, .disable) := by decide
/-- CA15: a mode change aborts the calibration and restores the gains. -/
theorem test_tick_aborts :
    look (fun t => (t.cal.flag, t.cal.step, t.gainsP.kp, t.posSp))
      (exec (.tick (inp 0 0 20)) { calAt 1 1023 (inp 0 0 10) with cmd := .zero }) = some (false, 0, 256, 1023) := by decide

/-! The integer operators and the loops -/

/-- 95_test_vectors.md, the smod values. -/
theorem test_smod :
    smod 511 1024 = 511 ∧ smod 512 1024 = -512 ∧ smod (-513) 1024 = 511 ∧ smod 4 7 = -3 ∧ smod (-4) 7 = 3 := by decide
/-- PR1 and PR4. -/
theorem test_profileS :
    [0, 250, 500, 1000, 1501, 1999].map (profileS 512 2000 500) = [0, 21, 85, 256, 427, 511] ∧
    [1, 499, 501, 1000].map (profileS 1023 1001 500) = [0, 508, 512, 1022] := by decide
/-- PID2 and PID5: the integral after a clamp. -/
theorem test_pidStep :
    let r := pidStep 1 { LoopState.zero with integ := 20 } { kp := 256, ki := 256, kd := 0 } 90 (-100) 100 8
    let q := pidStep 1 .zero { kp := 256, ki := 128, kd := 0 } (-10) 0 1000 8
    (r.2, r.1.integ, q.2, q.1.integ) = (100, 10, 0, 20) := by decide
/-- T3 and T9. -/
theorem test_trackRaw :
    (trackRaw vp 512 { abs := 0, prevRaw := 0 }).abs = 512 ∧
    (trackRaw { vp with ppr := 7 } 0 { abs := 3, prevRaw := 3 }).abs = 0 := by decide

/-! Witnesses: values that meet the hypotheses of each statement, every clause of it at a boundary -/

theorem witness_DecodeEncodeAgree :
    (Instr.wUnmapped 8 0).wf = true ∧ (Instr.wUnmapped 0xFFFF 255).wf = true ∧ (Instr.modeUnrecognized 2).wf = true := by
  decide

theorem witness_EveryBusWordIsOneTransaction :
    (0x0FFFFFF : BusWord).toNat < 2 ^ 24 ∧ 2 ^ 24 ≤ (0x1000000 : BusWord).toNat ∧
    (2 ^ 24 ≤ (0x1000800 : BusWord).toNat ∧
      8 ≤ (BitVec.ofNat 16 ((0x1000800 : BusWord).toNat / 2 ^ 8) : Addr).toNat) ∧
    ((0x0000800 : BusWord).toNat < 2 ^ 24 ∧
      Claims.unmapped (BitVec.ofNat 16 ((0x0000800 : BusWord).toNat / 2 ^ 8))) := by
  unfold Claims.unmapped; decide

theorem witness_ModeByteSelectsBranch :
    (∀ b ∈ [(2 : Byte), 4, 254], b ≠ 0 ∧ b ≠ 1 ∧ b ≠ 3 ∧ b ≠ 255) ∧
    ∀ m ∈ [(0 : Byte), 1, 255],
      let s := { s0 with pend := { s0.pend with mode := m } }
      s.pend.mode = 0 ∨ s.pend.mode = 1 ∨ s.pend.mode = 255 := by decide

theorem witness_FlagAndChecksumOnlyStored :
    let c := { s0.pend with mode := 3, newDataFlag := true, checksum := 0x5A }
    let s := { s0 with pend := c }
    s.params.validate.accepts s.pend = true ∨ s.pend.mode = 0 ∨ s.pend.mode = 1 ∨ s.pend.mode = 255 := by decide

theorem witness_OtherWritesChangeNothing : 8 ≤ (8 : Addr).toNat ∧ 8 ≤ (0xFFFF : Addr).toNat := by decide

theorem witness_CommitReplacesOrDrops :
    let ok := fun s : State =>
      s.params.validate.accepts s.pend = true ∨ s.pend.mode = 0 ∨ s.pend.mode = 1 ∨ s.pend.mode = 255
    let refusing := { s0 with params := { vp with validate := .only [] }, pend := { s0.pend with mode := 3 } }
    ok { refusing with pend := { s0.pend with mode := 255 } } ∧ ¬ok refusing ∧ s0.params.validate = .default := by decide

theorem witness_ReadReturnsSnapByte :
    ((0x00, s0.snap.cmd.mode) : Nat × Byte) ∈ Claims.registerRows s0.snap ∧
    ∀ n ∈ [0x08, 0x0F, 0x16, 0x1F, 0x2E, 0x2F, 0x3C, 0xFFFF], Claims.unmapped (BitVec.ofNat 16 n) :=
  ⟨by unfold Claims.registerRows; simp only [List.cons_append, List.mem_cons, true_or],
    by unfold Claims.unmapped; decide⟩

theorem witness_RepeatedTransactions :
    Instr.wChecksum ∈
      [Instr.wMode, Instr.wTargetA, Instr.wTargetB, Instr.wTimeA, Instr.wTimeB, Instr.wNewData, Instr.wChecksum] := by
  simp

theorem witness_TickEngineNeverReadsPend :
    Instr.modeCalibrate ∈
      [Instr.tick (inp 0 0 0), .modeIdle, .modeCalibrate, .modeWalkForward, .modePanicStop, .modeUnrecognized 2] := by
  decide

theorem witness_DoubleCommitEndsMotion : (calAt 1 0 (inp 0 0 0)).cal.flag = true := by decide

theorem witness_TickFrame :
    (inMode 2).cmd.mode ≠ 3 ∧ ((inMode 2).cmd.mode ≠ 1 ∧ (inMode 2).cal.flag = false) ∧
    ((inMode 2).cmd.mode ≠ 1 ∧ (inMode 2).cmd.mode ≠ 3) := by decide

theorem witness_IdleAndPanicStopSwitchOff :
    Instr.modePanicStop ∈ [Instr.modeIdle, .modePanicStop] ∧ (s0.cmd.mode = 0 ∨ s0.cmd.mode = 255) ∧
    ((inMode 255).cmd.mode = 0 ∨ (inMode 255).cmd.mode = 255) := by decide

theorem witness_UnrecognizedModeFaultsOnce :
    ∀ m ∈ [(2 : Byte), 4, 254],
      (inMode m).cmd.mode ≠ 0 ∧ (inMode m).cmd.mode ≠ 1 ∧ (inMode m).cmd.mode ≠ 3 ∧ (inMode m).cmd.mode ≠ 255 := by decide

theorem witness_EveryTickActuatesOnce : { vp with dutyMax := 65535 }.dutyMax ≤ 65535 := by decide

theorem witness_CalibrateEnters :
    let c := calAt 6 0 (inp 0 0 0)
    (s0.cal.flag = false ∨ s0.cal.step.toNat = 0 ∨ 6 ≤ s0.cal.step.toNat) ∧
    (c.cal.flag = false ∨ c.cal.step.toNat = 0 ∨ 6 ≤ c.cal.step.toNat) := by decide

/-- The four clauses, at 399 and 400 ms above the threshold and at the last and first ms of a window. -/
theorem witness_CalibrateProbesForTheStop :
    let stop := fun s : State =>
      s.params.calIThresh < s.lastCur.toNat ∧ s.cal.dbActive = true ∧
        (s.params.debounceMs : Int) ≤ ((s.tickIn.now.toNat : Int) - s.cal.dbStart.toNat) % 2 ^ 32
    let deb := fun s : State => { s with cal := { s.cal with dbActive := true, dbStart := 300 } }
    (∀ s ∈ [deb (calAt 1 0 (inp 0 501 700)), deb (calAt 1 0 (inp 0 501 699)), calTimed 1000 1 0 (inp 0 0 1000),
        calTimed 1000 1 0 (inp 0 0 999), calAt 1 0 (inp 0 0 10), calAt 1 0 (inp 0 0 9)],
      s.cal.flag = true ∧ s.cal.step = 1) ∧
    stop (deb (calAt 1 0 (inp 0 501 700))) ∧ ¬stop (deb (calAt 1 0 (inp 0 501 699))) ∧
    Claims.timedOut (calTimed 1000 1 0 (inp 0 0 1000)) ∧ ¬Claims.timedOut (calTimed 1000 1 0 (inp 0 0 999)) ∧
    ¬Claims.timedOut (calAt 1 0 (inp 0 0 10)) ∧
    (calAt 1 0 (inp 0 0 10)).tickIn.now.toNat / 10 ≠ (calAt 1 0 (inp 0 0 10)).cal.gateWin.toNat ∧
    (calAt 1 0 (inp 0 0 9)).tickIn.now.toNat / 10 = (calAt 1 0 (inp 0 0 9)).cal.gateWin.toNat := by
  unfold Claims.timedOut; decide

theorem witness_CalibrateSweeps :
    let target := fun s : State =>
      (BitVec.ofInt 16 (((s.cal.ref.toNat : Int) + s.params.searchOffset) % (s.params.ppr : Int)) : Half)
    let full := fun s : State => { s with cal := { s.cal with scount := 4 } }
    let a := calAt 2 3 (inp 0 0 10)
    let b := calAt 2 2 (inp 0 0 10)
    let c := calAt 2 2 (inp 0 0 9)
    (a.cal.flag = true ∧ a.cal.step = 2 ∧ a.posSp = target a) ∧
    (b.posSp ≠ target b ∧ b.tickIn.now.toNat / 10 ≠ b.cal.gateWin.toNat ∧ b.cal.scount.toNat < b.params.sampleN) ∧
    ((full b).posSp ≠ target (full b) ∧ (full b).tickIn.now.toNat / 10 ≠ (full b).cal.gateWin.toNat ∧
      (full b).params.sampleN ≤ (full b).cal.scount.toNat) ∧
    (c.posSp ≠ target c ∧ c.tickIn.now.toNat / 10 = c.cal.gateWin.toNat) := by decide

theorem witness_CalibrateResetsDetector :
    (calAt 3 3 (inp 0 0 0)).cal.flag = true ∧ (calAt 3 3 (inp 0 0 0)).cal.step = 3 := by decide

/-- CA13 and CA14, and the two ends of a window. -/
theorem witness_CalibrateSearchesForTheEdge :
    let seen := calTimed 500 4 3 { inp 0 0 500 with hallDet := true }
    let late := calTimed 500 4 3 (inp 0 0 500)
    (∀ s ∈ [seen, late, calAt 4 3 (inp 0 0 10), calAt 4 3 (inp 0 0 9)], s.cal.flag = true ∧ s.cal.step = 4) ∧
    seen.tickIn.hallDet = true ∧ (late.tickIn.hallDet = false ∧ Claims.timedOut late) ∧
    ((calAt 4 3 (inp 0 0 10)).tickIn.hallDet = false ∧ ¬Claims.timedOut (calAt 4 3 (inp 0 0 10)) ∧
      (calAt 4 3 (inp 0 0 10)).tickIn.now.toNat / 10 ≠ (calAt 4 3 (inp 0 0 10)).cal.gateWin.toNat) ∧
    ((calAt 4 3 (inp 0 0 9)).tickIn.hallDet = false ∧ ¬Claims.timedOut (calAt 4 3 (inp 0 0 9)) ∧
      (calAt 4 3 (inp 0 0 9)).tickIn.now.toNat / 10 = (calAt 4 3 (inp 0 0 9)).cal.gateWin.toNat) := by
  unfold Claims.timedOut; decide

theorem witness_CalibrateExits :
    (calAt 5 0 (inp 0 0 0)).cal.flag = true ∧ (calAt 5 0 (inp 0 0 0)).cal.step = 5 := by decide

/-- A recommit that differs in every other field, in the first and the last step. -/
theorem witness_RecommitDoesNotRestartCalibration :
    let other : MotionCommand :=
      { mode := 1, targetA := 2, targetB := 3, timeA := 4, timeB := 5, newDataFlag := true, checksum := 6 }
    ∀ n ∈ [(1 : Byte), 5],
      let s := { calAt n 0 (inp 0 0 0) with pend := other }
      s.cmd.mode = 1 ∧ other.mode = 1 ∧ s.pend.mode = 1 ∧ s.cal.flag = true ∧ 1 ≤ s.cal.step.toNat ∧
        s.cal.step.toNat ≤ 5 := by decide

theorem witness_GainsMoveOnlyWithCalibration :
    ∀ s ∈ [s0, calAt 1 0 (inp 0 0 0), calAt 5 0 (inp 0 0 0)],
      s.cal.flag = true → 1 ≤ s.cal.step.toNat ∧ s.cal.step.toNat ≤ 5 := by decide

theorem witness_WalkRejectsDegenerateCommand :
    ((walkTime 1000).tickFresh = true ∨ (walkTime 1000).prof.active = false) ∧
    256 * (walkTime 1000).cmd.timeA.toNat + (walkTime 1000).cmd.timeB.toNat ≤ 2 * (walkTime 1000).params.tAd := by decide

theorem witness_WalkDerivesProfile :
    ((walkTime 1001).tickFresh = true ∨ (walkTime 1001).prof.active = false) ∧
    2 * (walkTime 1001).params.tAd < 256 * (walkTime 1001).cmd.timeA.toNat + (walkTime 1001).cmd.timeB.toNat := by decide

theorem witness_WalkFollowsAndCompletes :
    let time := fun s : State => ((s.tickIn.now.toNat : Int) - s.prof.startTime.toNat) % 2 ^ 32
    (∀ s ∈ [walkAt true 2000, walkAt true 1999], s.tickFresh = false ∧ s.prof.active = true) ∧
    ((walkAt true 2000).prof.dur.toNat : Int) ≤ time (walkAt true 2000) ∧
    time (walkAt true 1999) < (walkAt true 1999).prof.dur.toNat := by decide

/-- PR1 and PR2, with an instant in each phase. -/
theorem witness_ProfileIsFloorOfTrapezoid :
    (2 * 500 < 2000 ∧ 0 < 500 ∧ 499 < 500 ∧ 500 ≤ 2000 - 500 ∧ 1500 ≤ 2000 - 500 ∧ 1999 < 2000) ∧
    (2 * 0 < 1000 ∧ 999 < 1000) := by decide

theorem witness_ProfileIsMonotoneAndBounded :
    (0 : Int) ≤ 1023 ∧ (0 : Int) ≤ 500 ∧ (2 * 500 : Int) < 1001 ∧ (0 : Int) ≤ 1000 ∧ (1000 : Int) < 1001 := by decide

/-- The unsaturated outputs of PID2 (200), PID5 (-15) and PID1 (45): above, below and inside the range. -/
theorem witness_PidStepComputesTheRule :
    1 ≤ 1 ∧ 1 ≤ 255 ∧ (-2 ^ 31 : Int) ≤ -10 ∧ (90 : Int) < 2 ^ 31 ∧
    (100 : Int) < fdiv (256 * 90 + 256 * Claims.sat (20 + 90)) (2 ^ 8) ∧
    fdiv (256 * (-10) + 128 * Claims.sat (0 + -10)) (2 ^ 8) < 0 ∧
    ((-1000 : Int) ≤ fdiv (256 * 45) (2 ^ 8) ∧ fdiv (256 * 45) (2 ^ 8) ≤ (1000 : Int)) := by decide

/-- PID2 and PID5 again, within the bounds of 44_controllers.md "Anti-windup guarantees". -/
theorem witness_SaturationStopsWindup :
    0 < (256 : Half).toNat ∧ (-32767 : Int) ≤ -10 ∧ (90 : Int) ≤ 32767 ∧ (-65535 : Int) ≤ -100 ∧ (100 : Int) ≤ 65535 ∧
    8 ≤ 16 ∧ (100 : Int) < (256 * 90 + 256 * Claims.sat (20 + 90)) / 2 ^ 8 ∧
    (256 * (-10) + 128 * Claims.sat (0 + -10)) / 2 ^ 8 < (0 : Int) := by decide

theorem witness_DerivativeIsDecimated :
    1 ≤ 4 ∧ 4 ≤ 255 ∧ ∀ k : Nat, (-32767 : Int) ≤ ((k % 7 : Nat) : Int) ∧ ((k % 7 : Nat) : Int) ≤ 32767 :=
  ⟨by decide, by decide, fun k => by omega⟩

theorem witness_CascadeDrivesTheBridge :
    s0.params.Valid ∧ 32767 ≤ 32767 ∧ s0.lastCur.toNat ≤ 32767 ∧ { vp with dutyMax := 65535 }.dutyMax ≤ 65535 :=
  ⟨test_vp_valid, by decide, by decide, by decide⟩

theorem witness_TrackerMovesByMinimalDelta : vp.Valid := test_vp_valid

theorem witness_ResetMeetsInvariants : vp.Valid := test_vp_valid

theorem witness_EveryInstructionKeepsInvariant : s0.Inv where
  params := test_vp_valid
  positions := by constructor <;> decide
  cal := by constructor <;> decide
  ploop := by unfold LoopState.Good; decide
  cloop := by unfold LoopState.Good; decide
  drive := by constructor <;> decide
  lastCur := by decide
  lastFault := by decide
  ramp := by decide

/-- Reset with a bus write placed: the next step runs it. -/
theorem witness_EveryStepKeepsInvariant :
    (s0.withFetchWord 32 0x1000003).Inv ∧
    step (s0.withFetchWord 32 0x1000003) = .next { s0 with pend := { s0.pend with mode := 3 } } :=
  ⟨{ params := test_vp_valid
     positions := by constructor <;> decide
     cal := by constructor <;> decide
     ploop := by unfold LoopState.Good; decide
     cloop := by unfold LoopState.Good; decide
     drive := by constructor <;> decide
     lastCur := by decide
     lastFault := by decide
     ramp := by decide }, rfl⟩

theorem witness_NormalGainsOutsideCalibration :
    (s0.withFetchWord 32 0x1000003).Inv ∧ (s0.withFetchWord 32 0x1000003).GoodGains ∧
    step (s0.withFetchWord 32 0x1000003) = .next { s0 with pend := { s0.pend with mode := 3 } } :=
  ⟨witness_EveryStepKeepsInvariant.1, by constructor <;> decide, rfl⟩

theorem witness_StepRunsTheDecodedInstruction :
    let w : BusWord := 0x1000003
    { s0 with held := [w] }.held = w :: [] ∧
    ({ s0 with events := [.bus w] }.held = [] ∧ { s0 with events := [.bus w] }.events = .bus w :: []) ∧
    ({ s0 with events := [.tick (inp 0 0 0) [w]] }.held = [] ∧
      { s0 with events := [.tick (inp 0 0 0) [w]] }.events = .tick (inp 0 0 0) [w] :: []) ∧
    (s0.held = [] ∧ s0.events = []) := by decide

theorem witness_HeldTransactionsRunAfterTheTick :
    let s := { s0 with events := [.tick (inp 0 0 0) [0x1000003, 0x1000700]] }
    s.held = [] ∧ s.events = .tick (inp 0 0 0) [0x1000003, 0x1000700] :: [] ∧
    (∀ k ∈ [0, 2], k ≤ [(0x1000003 : BusWord), 0x1000700].length) := by decide

theorem witness_PlacedWordRunsNext : 2 ^ 25 - 1 < 2 ^ 25 ∧ 255 < 2 ^ 8 := by decide

end Sys2Proof.Tests
end

section
/-! Noninterference of PEND (10_state.md R23). A meaning ignores PEND when it commutes with every write of PEND
(Mathlib's `Function.Commute`). Straight-line updates do so by `rfl`; the branching meanings are put together with
`Function.Commute.comp_right` and `commute_ite`, because no condition of the tick engine looks at PEND. -/

namespace Sys2Proof.Machine

/-- `s` with PEND replaced by `c`. -/
def writePend (c : MotionCommand) (s : State) : State := { s with pend := c }

theorem writePend_pend (c : MotionCommand) (s : State) : (writePend c s).pend = c := rfl

theorem writePend_self (s : State) : writePend s.pend s = s := rfl

theorem writePend_cal (c : MotionCommand) (s : State) : (writePend c s).cal = s.cal := rfl

/-- What commutes with every write of PEND keeps PEND: writing back the value that PEND has changes nothing. -/
theorem pend_eq_of_commute {f : State → State} (hf : ∀ c, Function.Commute (writePend c) f) (s : State) :
    (f s).pend = s.pend :=
  calc (f s).pend = (f (writePend s.pend s)).pend := by rw [writePend_self]
    _ = (writePend s.pend (f s)).pend := by rw [hf s.pend s]
    _ = s.pend := writePend_pend _ _

/-- A conditional commutes with `f` when its branches do and `f` keeps its condition. -/
theorem commute_ite {f g h : State → State} {b : State → Prop} {_ : DecidablePred b} (hb : ∀ s, b (f s) ↔ b s)
    (hg : Function.Commute f g) (hh : Function.Commute f h) :
    Function.Commute f (fun s => if b s then g s else h s) := by
  intro s
  by_cases hs : b s
  · simpa [hs, hb] using hg s
  · simpa [hs, hb] using hh s

section Branches

variable (c : MotionCommand)

/-! Calibration (42_calibration.md) -/

theorem writePend_commute_debounceMark : Function.Commute (writePend c) debounceMark :=
  commute_ite (fun _ => .rfl) (commute_ite (fun _ => .rfl) .id_right fun _ => rfl) fun _ => rfl

theorem writePend_commute_rampDown : Function.Commute (writePend c) rampDown :=
  commute_ite (fun _ => .rfl) (fun _ => rfl) .id_right

theorem writePend_commute_takeSample : Function.Commute (writePend c) takeSample :=
  commute_ite (fun _ => .rfl) (fun _ => rfl) .id_right

theorem writePend_commute_sweepMove : Function.Commute (writePend c) sweepMove :=
  have pulse : Function.Commute (writePend c) (pulseUp ∘ gateMark) := fun _ => rfl
  commute_ite (fun _ => .rfl) (fun _ => rfl)
    (commute_ite (fun _ => .rfl) ((writePend_commute_takeSample c).comp_right pulse) .id_right)

/-- A move of the setpoint, then the loops with the calibration limit: how the steps 1, 2 and 4 go on. -/
theorem writePend_commute_calLoops {move : State → State} (hm : Function.Commute (writePend c) move) :
    Function.Commute (writePend c) (fun s => runLoops s.params.calPosOutLimit (move s)) := fun s =>
  have loops : Function.Commute (writePend c) (runLoops s.params.calPosOutLimit) := fun _ => rfl
  loops.comp_right hm s

theorem writePend_commute_calProbe : Function.Commute (writePend c) calProbe := by
  have outcome : Function.Commute (writePend c) (fun d =>
      if debounceDone d then hardStop d
      else if calTimedOut d then calTimeout d
      else runLoops d.params.calPosOutLimit (rampDown d)) :=
    commute_ite (fun _ => .rfl) (fun _ => rfl)
      (commute_ite (fun _ => .rfl) (fun _ => rfl) (writePend_commute_calLoops c (writePend_commute_rampDown c)))
  exact outcome.comp_right (writePend_commute_debounceMark c)

theorem writePend_commute_calSearch : Function.Commute (writePend c) calSearch :=
  commute_ite (fun _ => .rfl) (fun _ => rfl)
    (commute_ite (fun _ => .rfl) (fun _ => rfl) (writePend_commute_calLoops c (writePend_commute_rampDown c)))

/-- CAL.flag and CAL.step select the step (R161), and a write of PEND leaves CAL alone. -/
theorem writePend_commute_calBranch : Function.Commute (writePend c) calBranch := by
  intro s
  unfold calBranch
  rw [writePend_cal]
  split
  · split
    · exact writePend_commute_calProbe c s
    · exact writePend_commute_calLoops c (writePend_commute_sweepMove c) s
    · rfl
    · exact writePend_commute_calSearch c s
    · rfl
    · rfl
  · rfl

/-! Walk (43_profile.md) -/

theorem writePend_commute_walkSegment : Function.Commute (writePend c) walkSegment :=
  commute_ite (fun _ => .rfl) (fun _ => rfl) (fun _ => rfl)

theorem writePend_commute_walkBranch (fresh : Bool) : Function.Commute (writePend c) (walkBranch fresh) :=
  have derive : Function.Commute (writePend c) profDerive := fun _ => rfl
  commute_ite (fun _ => .rfl)
    (commute_ite (fun _ => .rfl) (fun _ => rfl) ((writePend_commute_walkSegment c).comp_right derive))
    (writePend_commute_walkSegment c)

/-! The tick (41_dispatcher.md) -/

theorem writePend_commute_exitChecks (m : Byte) : Function.Commute (writePend c) (exitChecks m) := by
  have abort : Function.Commute (writePend c) (fun s => if s.cal.flag && m != 1 then calAbort s else s) :=
    commute_ite (fun _ => .rfl) (fun _ => rfl) .id_right
  have discard : Function.Commute (writePend c) (fun a => if a.prof.active && m != 3 then profDiscard a else a) :=
    commute_ite (fun _ => .rfl) (fun _ => rfl) .id_right
  exact discard.comp_right abort

theorem writePend_commute_dispatch (m : Byte) (fresh : Bool) :
    Function.Commute (writePend c) (dispatch m fresh) := by
  intro s
  unfold dispatch
  split
  · rfl
  · exact writePend_commute_calBranch c s
  · exact writePend_commute_walkBranch c fresh s
  · rfl
  · rfl

/-- The mode byte and its freshness come from CMD, so all four phases and the publish pass a write of PEND on. -/
theorem writePend_commute_tickStep (inp : TickIn) : Function.Commute (writePend c) (tickStep inp) := fun s =>
  have command : Function.Commute (writePend c) (commandRead inp) := fun _ => rfl
  have publishes : Function.Commute (writePend c) publish := fun _ => rfl
  publishes.comp_right ((writePend_commute_dispatch c s.cmd.mode s.cmdFresh).comp_right
    ((writePend_commute_exitChecks c s.cmd.mode).comp_right command)) s

theorem writePend_commute_modeWalkForward :
    Function.Commute (writePend c) (fun s => modeWalkForward s.tickFresh s) :=
  fun s => writePend_commute_walkBranch c s.tickFresh s

end Branches

/-- An instruction whose meaning commutes with every write of PEND neither reads nor writes PEND. -/
theorem exec_ignores_pend {i : Instr} {f : State → State} (hexec : ∀ s, exec i s = .next (f s))
    (hf : ∀ c, Function.Commute (writePend c) f) (s : State) (c : MotionCommand) :
    ∃ t, exec i s = .next t ∧ t.pend = s.pend ∧ exec i { s with pend := c } = .next { t with pend := c } :=
  ⟨f s, hexec s, pend_eq_of_commute hf s, (hexec _).trans (congrArg _ (hf c s).symm)⟩

/-- Settles O20: the tick and every mode branch commute with a write of PEND. -/
theorem tickEngineNeverReadsPend : Obligations.TickEngineNeverReadsPend := by
  unfold Obligations.TickEngineNeverReadsPend
  refine ⟨fun _ => rfl, fun s c m inp => ?_⟩
  simp only [List.forall_mem_cons]
  refine ⟨?tick, ?idle, ?calibrate, ?walk, ?panicStop, ?unrecognized, by simp⟩
  case tick => exact exec_ignores_pend (fun _ => rfl) (fun c => writePend_commute_tickStep c inp) s c
  case idle => exact exec_ignores_pend (f := modeIdle) (fun _ => rfl) (fun _ _ => rfl) s c
  case calibrate => exact exec_ignores_pend (fun _ => rfl) writePend_commute_calBranch s c
  case walk => exact exec_ignores_pend (fun _ => rfl) writePend_commute_modeWalkForward s c
  case panicStop => exact exec_ignores_pend (f := modePanicStop) (fun _ => rfl) (fun _ _ => rfl) s c
  case unrecognized => exact exec_ignores_pend (f := modeUnrecognized) (fun _ => rfl) (fun _ _ => rfl) s c

end Sys2Proof.Machine
end

section
/-! Decoding by the numeric fields of a BUS word and by the mode byte (30_encoding.md R80, R86, R90), and what the
transactions and branches so selected do. -/

namespace Sys2Proof

theorem busAddr_eq_ofNat (w : BusWord) : busAddr w = BitVec.ofNat 16 (w.toNat / 2 ^ 8) :=
  BitVec.eq_of_toNat_eq (by rw [busAddr_toNat, BitVec.toNat_ofNat])

theorem busData_eq_ofNat (w : BusWord) : busData w = BitVec.ofNat 8 w.toNat :=
  BitVec.eq_of_toNat_eq (by rw [busData_toNat, BitVec.toNat_ofNat])

/-- W = 0 selects the read (R80, R86). -/
theorem decode_bus_read {w : BusWord} (h : w.toNat < 2 ^ 24) : decode (.bus w) = .r (busAddr w) (busData w) :=
  if_neg (by rw [busIsWrite_eq, decide_eq_true_iff]; omega)

/-- W = 1 selects the write row of the address (R80, R86). -/
theorem decode_bus_write {w : BusWord} (h : 2 ^ 24 ≤ w.toNat) :
    decode (.bus w) = decodeWrite (busAddr w) (busData w) :=
  if_pos (by rw [busIsWrite_eq, decide_eq_true_iff]; exact h)

/-- The eight writable rows of R84 and the catch-all, told apart by the address: one case per row. -/
theorem decodeWrite_eq_ite (a : Addr) (d : Byte) :
    decodeWrite a d =
      if a = 0 then .wMode d else if a = 1 then .wTargetA d else if a = 2 then .wTargetB d
      else if a = 3 then .wTimeA d else if a = 4 then .wTimeB d else if a = 5 then .wNewData d
      else if a = 6 then .wChecksum d else if a = 7 then .wCommit d else .wUnmapped a d := by
  simp only [← BitVec.toNat_inj]
  unfold decodeWrite
  split <;> simp_all

theorem recognizedMode_eq_false_iff (b : Byte) :
    recognizedMode b = false ↔ b ≠ 0 ∧ b ≠ 1 ∧ b ≠ 3 ∧ b ≠ 255 := by
  simp [recognizedMode, and_assoc]

end Sys2Proof

namespace Sys2Proof.Machine

theorem exec_r (a : Addr) (d : Byte) (s : State) :
    exec (.r a d) s = .next { s with resp := some (readByte s.snap a) } := rfl

theorem exec_wUnmapped (a : Addr) (d : Byte) (s : State) : exec (.wUnmapped a d) s = .next s := rfl

theorem exec_wCommit (d : Byte) (s : State) : exec (.wCommit d) s = .next (commit s) := rfl

/-- An address in no row of R84 reads 0x00 (R86). -/
theorem readByte_unmapped {a : Addr} (h : Claims.unmapped a) (n : Snap) : readByte n a = 0x00 := by
  unfold Claims.unmapped at h
  unfold readByte
  split
  any_goals omega -- a row of the map contradicts `h`: the catch-all is left
  rfl

/-- The always-allowed set of the commit (R90, R110). -/
theorem alwaysAllowed_iff (m : Byte) : alwaysAllowed m = true ↔ m = 0 ∨ m = 1 ∨ m = 255 := by
  simp [alwaysAllowed, or_assoc]

theorem commitSucceeds_of_alwaysAllowed {s : State} (h : alwaysAllowed s.pend.mode = true) :
    commitSucceeds s = true := by
  simp [commitSucceeds, h]

theorem commit_of_succeeds {s : State} (h : commitSucceeds s = true) :
    commit s = { s with cmd := s.pend, cmdFresh := true, pend := .zero } := by
  obtain ⟨-, hc⟩ | ⟨hf, -⟩ := commit_cases s
  · exact hc
  · exact absurd (h.symm.trans hf) (by decide)

/-- A tick publishes the command it ends with (R140). -/
theorem tickStep_snap_cmd (inp : TickIn) (s : State) : (tickStep inp s).snap.cmd = (tickStep inp s).cmd := rfl

/-- Right after a tick, a read of the address of a command field returns that field of CMD (R85, R140). -/
theorem exec_r_tickStep {a : Addr} {field : MotionCommand → Byte} (hrow : ∀ n : Snap, readByte n a = field n.cmd)
    (d : Byte) (inp : TickIn) (s : State) :
    exec (.r a d) (tickStep inp s) = .next { tickStep inp s with resp := some (field (tickStep inp s).cmd) } := by
  rw [exec_r, hrow, tickStep_snap_cmd]

/-- Settles O3: W selects the read or the write, and the address the row. -/
theorem everyBusWordIsOneTransaction : Obligations.EveryBusWordIsOneTransaction := by
  unfold Obligations.EveryBusWordIsOneTransaction
  intro w s
  simp only [← busAddr_eq_ofNat, ← busData_eq_ofNat]
  refine ⟨decode_bus_read, fun hw => ?row, ?executes, fun hw ha => ?noWrite, fun hw ha => ?noRead⟩
  case row => rw [decode_bus_write hw, decodeWrite_eq_ite]
  case executes =>
    obtain ⟨t, ht, -⟩ := bus_exec w s
    exact ⟨t, ht⟩
  case noWrite => rw [decode_bus_write hw, decodeWrite_unmapped ha, exec_wUnmapped]
  case noRead => rw [decode_bus_read hw, exec_r, readByte_unmapped ha]

/-- Settles O4: the four recognized bytes by evaluation, the others by the catch-all row, and the commit by its case
lemma. -/
theorem modeByteSelectsBranch : Obligations.ModeByteSelectsBranch := by
  unfold Obligations.ModeByteSelectsBranch
  refine ⟨rfl, rfl, rfl, rfl, fun b h0 h1 h3 h255 => ?other, fun d s hm => ?commits⟩
  case other => exact decodeMode_unrecognized ((recognizedMode_eq_false_iff b).mpr ⟨h0, h1, h3, h255⟩)
  case commits =>
    have allowed : commitSucceeds s = true := commitSucceeds_of_alwaysAllowed ((alwaysAllowed_iff _).mpr hm)
    rw [exec_wCommit, commit_of_succeeds allowed]

/-- Settles O17: reads view SNAP only, and a tick ends by publishing CMD there. -/
theorem commandReadsBackAsPublished : Obligations.CommandReadsBackAsPublished := by
  unfold Obligations.CommandReadsBackAsPublished
  refine ⟨fun inp d s => ⟨tickStep inp s, rfl, ?published⟩, fun a d s p c => ⟨_, exec_r a d s, exec_r a d _⟩⟩
  case published =>
    exact ⟨exec_r_tickStep (field := (·.mode)) (fun _ => rfl) d inp s,
      exec_r_tickStep (field := (·.targetA)) (fun _ => rfl) d inp s,
      exec_r_tickStep (field := (·.targetB)) (fun _ => rfl) d inp s,
      exec_r_tickStep (field := (·.timeA)) (fun _ => rfl) d inp s,
      exec_r_tickStep (field := (·.timeB)) (fun _ => rfl) d inp s,
      exec_r_tickStep (field := fun c => byteOfFlag c.newDataFlag) (fun _ => rfl) d inp s,
      exec_r_tickStep (field := (·.checksum)) (fun _ => rfl) d inp s⟩

end Sys2Proof.Machine
end

section
/-! The mailbox's words (30_encoding.md R80, 40_mailbox.md): a word built from W, ADDR and DATA decodes to the row of
its address, a field write stores its byte in PEND, and a read views SNAP by the rows of R84. -/

namespace Sys2Proof.Machine

/-! Decoding a word given by its fields -/

theorem decode_writeWord (a : Addr) (d : Byte) : decode (.bus (Claims.word 1 a.toNat d.toNat)) = decodeWrite a d :=
  decode_busWord true a d

theorem decode_readWord (a : Addr) (d : Byte) : decode (.bus (Claims.word 0 a.toNat d.toNat)) = .r a d :=
  decode_busWord false a d

/-! Field writes -/

/-- The flag byte as R105 words it. -/
theorem flagOfByte_eq (d : Byte) : flagOfByte d = decide (d ≠ 0) := by
  simp [flagOfByte, bne, Bool.beq_eq_decide_eq]

/-- The two target bytes are the high and the low byte of the 16-bit target (R83). -/
theorem target16_toNat (c : MotionCommand) : (target16 c).toNat = 256 * c.targetA.toNat + c.targetB.toNat := by
  have hb := c.targetB.isLt
  rw [target16, BitVec.toNat_append, ← Nat.shiftLeft_add_eq_or_of_lt hb, Nat.shiftLeft_eq]
  omega

/-- Settles O6: the rows of R84 decode to the five writes, each of which is one record update of PEND. -/
theorem fieldWritesStoreInPend : Obligations.FieldWritesStoreInPend := by
  unfold Obligations.FieldWritesStoreInPend
  intro d s
  refine ⟨⟨decode_writeWord 0x0000 d, rfl⟩, ⟨decode_writeWord 0x0001 d, rfl⟩, ⟨decode_writeWord 0x0002 d, rfl⟩,
    ⟨decode_writeWord 0x0003 d, rfl⟩, ⟨decode_writeWord 0x0004 d, rfl⟩, fun b => ?eitherOrder⟩
  case eitherOrder => exact ⟨_, _, _, rfl, rfl, rfl, rfl, target16_toNat _⟩

/-- Settles O8: the catch-all row, whose meaning is the no-op. -/
theorem otherWritesChangeNothing : Obligations.OtherWritesChangeNothing := by
  unfold Obligations.OtherWritesChangeNothing
  intro a d s ha
  exact ⟨(decode_writeWord a d).trans (decodeWrite_unmapped ha d), exec_wUnmapped a d s⟩

/-! Reads -/

theorem hiByte_eq_ofNat (v : Half) : hiByte v = BitVec.ofNat 8 (v.toNat / 256) := by
  simp [hiByte, BitVec.extractLsb', Nat.shiftRight_eq_div_pow]

theorem loByte_eq_ofNat (v : Half) : loByte v = BitVec.ofNat 8 (v.toNat % 256) := by
  simp [loByte, BitVec.extractLsb', ← BitVec.toNat_inj]

/-- The signed 16-bit register as the unsigned number whose two bytes the map shows (R84). -/
theorem toInt_emod_toNat (v : Half) : (v.toInt % 65536).toNat = v.toNat := by
  have hv := v.isLt
  rw [BitVec.toInt_eq_toNat_cond]
  split <;> omega

theorem byteOfFlag_eq (b : Bool) : byteOfFlag b = if b then 0x01 else 0x00 := rfl

theorem driveByte_eq (d : Drive) : driveByte d = if d = .off then 0 else if d = .fwd then 1 else 2 := by
  cases d <;> rfl

/-- A 16-bit register read as its two bytes fills the two rows of the map that stand for it (R62, R84). -/
theorem readByte_halfRows {n : Snap} {addr : Nat} {v : Half} (hi : readByte n (BitVec.ofNat 16 addr) = hiByte v)
    (lo : readByte n (BitVec.ofNat 16 (addr + 1)) = loByte v) :
    ∀ row ∈ Claims.halfRows addr v.toNat, readByte n (BitVec.ofNat 16 row.1) = row.2 := by
  simp only [Claims.halfRows, List.forall_mem_cons]
  exact ⟨hi.trans (hiByte_eq_ofNat v), lo.trans (loByte_eq_ofNat v), by simp⟩

/-- `readByte` is the register map of R84, row by row. -/
theorem readByte_registerRows (n : Snap) :
    ∀ row ∈ Claims.registerRows n, readByte n (BitVec.ofNat 16 row.1) = row.2 := by
  simp only [Claims.registerRows, toInt_emod_toNat, List.forall_mem_append, and_assoc]
  refine ⟨?bytes, readByte_halfRows rfl rfl, readByte_halfRows rfl rfl, readByte_halfRows rfl rfl,
    readByte_halfRows rfl rfl, readByte_halfRows rfl rfl, readByte_halfRows rfl rfl, readByte_halfRows rfl rfl,
    readByte_halfRows rfl rfl, readByte_halfRows rfl rfl, readByte_halfRows rfl rfl, readByte_halfRows rfl rfl,
    readByte_halfRows rfl rfl, readByte_halfRows rfl rfl⟩
  case bytes =>
    simp only [List.forall_mem_cons, ← byteOfFlag_eq, ← driveByte_eq]
    exact ⟨rfl, rfl, rfl, rfl, rfl, rfl, rfl, rfl, rfl, rfl, rfl, rfl, rfl, rfl, by simp⟩

/-- Settles O10: a read returns `readByte` of SNAP, which is the register map. -/
theorem readReturnsSnapByte : Obligations.ReadReturnsSnapByte := by
  unfold Obligations.ReadReturnsSnapByte
  refine fun d s => ⟨fun a => decode_readWord a d, fun row hrow => ?mapped, fun a ha => ?unmapped⟩
  case mapped => rw [exec_r, readByte_registerRows s.snap row hrow]
  case unmapped => rw [exec_r, readByte_unmapped ha]

end Sys2Proof.Machine
end

section
/-! Noninterference of CMD's new_data_flag and checksum (40_mailbox.md R105, R106). The phases of a tick commute with
every write of the two fields, because no condition and no operand of the tick engine is taken from them; only the
publish copies them. -/

namespace Sys2Proof.Machine

/-- `s` with CMD's new_data_flag and checksum replaced. -/
def writeInert (flag : Bool) (sum : Byte) (s : State) : State :=
  { s with cmd := { s.cmd with newDataFlag := flag, checksum := sum } }

theorem writeInert_cal (flag : Bool) (sum : Byte) (s : State) : (writeInert flag sum s).cal = s.cal := rfl

section Phases

variable (flag : Bool) (sum : Byte)

/-! Calibration (42_calibration.md) -/

theorem writeInert_commute_debounceMark : Function.Commute (writeInert flag sum) debounceMark :=
  commute_ite (fun _ => .rfl) (commute_ite (fun _ => .rfl) .id_right fun _ => rfl) fun _ => rfl

/-- The one-pulse descent, then the loops: how the steps 1 and 4 go on. -/
theorem writeInert_commute_descent :
    Function.Commute (writeInert flag sum) (fun s => runLoops s.params.calPosOutLimit (rampDown s)) := fun s =>
  have ramp : Function.Commute (writeInert flag sum) rampDown :=
    commute_ite (fun _ => .rfl) (fun _ => rfl) .id_right
  congrArg (runLoops s.params.calPosOutLimit) (ramp s)

theorem writeInert_commute_calProbe : Function.Commute (writeInert flag sum) calProbe := by
  have outcome : Function.Commute (writeInert flag sum) (fun d =>
      if debounceDone d then hardStop d
      else if calTimedOut d then calTimeout d
      else runLoops d.params.calPosOutLimit (rampDown d)) :=
    commute_ite (fun _ => .rfl) (fun _ => rfl)
      (commute_ite (fun _ => .rfl) (fun _ => rfl) (writeInert_commute_descent flag sum))
  exact outcome.comp_right (writeInert_commute_debounceMark flag sum)

theorem writeInert_commute_calSweep : Function.Commute (writeInert flag sum) calSweep := fun s =>
  have sample : Function.Commute (writeInert flag sum) takeSample :=
    commute_ite (fun _ => .rfl) (fun _ => rfl) .id_right
  have pulse : Function.Commute (writeInert flag sum) (pulseUp ∘ gateMark) := fun _ => rfl
  have move : Function.Commute (writeInert flag sum) sweepMove :=
    commute_ite (fun _ => .rfl) (fun _ => rfl)
      (commute_ite (fun _ => .rfl) (sample.comp_right pulse) .id_right)
  congrArg (runLoops s.params.calPosOutLimit) (move s)

theorem writeInert_commute_calSearch : Function.Commute (writeInert flag sum) calSearch :=
  commute_ite (fun _ => .rfl) (fun _ => rfl)
    (commute_ite (fun _ => .rfl) (fun _ => rfl) (writeInert_commute_descent flag sum))

/-- CAL.flag and CAL.step select the step (R161), and a write of the two fields leaves CAL alone. -/
theorem writeInert_commute_calBranch : Function.Commute (writeInert flag sum) calBranch := by
  intro s
  unfold calBranch
  rw [writeInert_cal]
  split
  · split
    · exact writeInert_commute_calProbe flag sum s
    · exact writeInert_commute_calSweep flag sum s
    · rfl
    · exact writeInert_commute_calSearch flag sum s
    · rfl
    · rfl
  · rfl

/-! Walk (43_profile.md): of CMD it reads the target and the time only -/

theorem writeInert_commute_walkBranch (fresh : Bool) :
    Function.Commute (writeInert flag sum) (walkBranch fresh) :=
  have segment : Function.Commute (writeInert flag sum) walkSegment :=
    commute_ite (fun _ => .rfl) (fun _ => rfl) (fun _ => rfl)
  have derive : Function.Commute (writeInert flag sum) profDerive := fun _ => rfl
  commute_ite (fun _ => .rfl)
    (commute_ite (fun _ => .rfl) (fun _ => rfl) (segment.comp_right derive)) segment

/-! The tick (41_dispatcher.md) -/

theorem writeInert_commute_exitChecks (m : Byte) : Function.Commute (writeInert flag sum) (exitChecks m) := by
  have abort : Function.Commute (writeInert flag sum) (fun s => if s.cal.flag && m != 1 then calAbort s else s) :=
    commute_ite (fun _ => .rfl) (fun _ => rfl) .id_right
  have discard : Function.Commute (writeInert flag sum)
      (fun a => if a.prof.active && m != 3 then profDiscard a else a) :=
    commute_ite (fun _ => .rfl) (fun _ => rfl) .id_right
  exact discard.comp_right abort

theorem writeInert_commute_dispatch (m : Byte) (fresh : Bool) :
    Function.Commute (writeInert flag sum) (dispatch m fresh) := by
  intro s
  unfold dispatch
  split
  · rfl
  · exact writeInert_commute_calBranch flag sum s
  · exact writeInert_commute_walkBranch flag sum fresh s
  · rfl
  · rfl

/-- Phases 1 to 4 pass a write of the two fields on; the publish then shows them with the rest of CMD. -/
theorem tickStep_writeInert (inp : TickIn) (s : State) :
    tickStep inp (writeInert flag sum s) = publish (writeInert flag sum
      (dispatch s.cmd.mode s.cmdFresh (exitChecks s.cmd.mode (commandRead inp s)))) := by
  have command : Function.Commute (writeInert flag sum) (commandRead inp) := fun _ => rfl
  exact congrArg publish (((writeInert_commute_dispatch flag sum s.cmd.mode s.cmdFresh).comp_right
    ((writeInert_commute_exitChecks flag sum s.cmd.mode).comp_right command)) s).symm

end Phases

theorem exec_tick (inp : TickIn) (s : State) : exec (.tick inp) s = .next (tickStep inp s) := rfl

/-- Of CMD a tick writes the mode only (R137), so it keeps every other field. -/
theorem tickStep_cmd (inp : TickIn) (s : State) :
    (tickStep inp s).cmd = { s.cmd with mode := (tickStep inp s).cmd.mode } := (tick_frame inp s).cmd

/-- When a commit succeeds (R110). -/
theorem commitSucceeds_iff (s : State) :
    commitSucceeds s = true ↔
      s.params.validate.accepts s.pend = true ∨ s.pend.mode = 0 ∨ s.pend.mode = 1 ∨ s.pend.mode = 255 := by
  rw [commitSucceeds, Bool.or_eq_true, alwaysAllowed_iff]

/-- Settles O7: the two writes store, a commit copies PEND whole, the phases of a tick commute with a write of the two
fields, and the publish copies CMD whole. -/
theorem flagAndChecksumOnlyStored : Obligations.FlagAndChecksumOnlyStored := by
  unfold Obligations.FlagAndChecksumOnlyStored
  refine ⟨fun d s => ?stored, fun inp s flag sum => ?inert, fun d s hok => ?committed, fun inp s => ?published⟩
  case stored =>
    rw [← flagOfByte_eq]
    exact ⟨decode_writeWord 0x0005 d, rfl, decode_writeWord 0x0006 d, rfl⟩
  case inert => exact ⟨tickStep inp s, exec_tick inp s, congrArg _ (tickStep_writeInert flag sum inp s)⟩
  case committed =>
    refine ⟨commit s, exec_wCommit d s, ?_⟩
    rw [commit_of_succeeds ((commitSucceeds_iff s).mpr hok)]
    exact ⟨rfl, rfl⟩
  case published =>
    refine ⟨tickStep inp s, exec_tick inp s, ?_⟩
    rw [tickStep_snap_cmd, tickStep_cmd]
    exact ⟨rfl, rfl⟩

end Sys2Proof.Machine
end

section
/-! The tick's phases and the branches that switch off (41_dispatcher.md): what the exit checks end and what they keep
(R131), the branch of the mode byte (R132), and the ticks in Idle, PanicStop and an unrecognized mode. -/

namespace Sys2Proof.Machine

/-! The exit checks (R131) -/

/-- The condition of an exit check: the sub-sequence runs and the mode is not its owner `k` (R131). -/
theorem and_bne_iff (running : Bool) (m k : Byte) : (running && m != k) = true ↔ running = true ∧ m ≠ k := by
  rw [Bool.and_eq_true, bne_iff_ne]

/-- The first exit check: the state with a calibration that mode `m` does not own aborted (R131, R172). -/
def abortForeign (m : Byte) (s : State) : State := if s.cal.flag = true ∧ m ≠ 1 then calAbort s else s

theorem abortForeign_prof (m : Byte) (s : State) : (abortForeign m s).prof = s.prof := by
  unfold abortForeign
  split <;> rfl

theorem abortForeign_cal_flag {m : Byte} (hm : m ≠ 1) (s : State) : (abortForeign m s).cal.flag = false := by
  unfold abortForeign
  split
  case isTrue => rfl
  case isFalse h => exact Bool.eq_false_iff.mpr fun running => h ⟨running, hm⟩

/-- The two exit checks are independent: the abort keeps PROF, so the discard may look at PROF of the given state. -/
theorem exitChecks_eq (m : Byte) (s : State) :
    exitChecks m s =
      if s.prof.active = true ∧ m ≠ 3 then { abortForeign m s with prof := { s.prof with active := false } }
      else abortForeign m s := by
  have abort : (if s.cal.flag && m != 1 then calAbort s else s) = abortForeign m s :=
    if_congr (and_bne_iff _ m 1) rfl rfl
  calc exitChecks m s
    _ = if (abortForeign m s).prof.active && m != 3 then profDiscard (abortForeign m s) else abortForeign m s := by
        rw [← abort]; rfl
    _ = _ := by
        rw [profDiscard, abortForeign_prof]
        exact if_congr (and_bne_iff _ m 3) rfl rfl

/-- After the exit checks of a mode other than Calibrate no calibration runs (R131, R172). -/
theorem exitChecks_cal_flag {m : Byte} (hm : m ≠ 1) (s : State) : (exitChecks m s).cal.flag = false := by
  rw [exitChecks_eq]
  split <;> exact abortForeign_cal_flag hm s

/-- After the exit checks of a mode other than WalkForward no profile is active (R131, R207). -/
theorem exitChecks_prof_active {m : Byte} (hm : m ≠ 3) (s : State) : (exitChecks m s).prof.active = false := by
  rw [exitChecks_eq]
  split
  case isTrue => rfl
  case isFalse h =>
    rw [abortForeign_prof]
    exact Bool.eq_false_iff.mpr fun active => h ⟨active, hm⟩

/-- What both the abort and the discard keep, the exit checks keep (R131). -/
theorem exitChecks_keeps {α : Type} {field : State → α} (abort : ∀ s, field (calAbort s) = field s)
    (discard : ∀ s, field (profDiscard s) = field s) (m : Byte) (s : State) :
    field (exitChecks m s) = field s := by
  obtain h | h | h | h := exitChecks_cases m s <;> rw [h]
  · exact abort s
  · exact discard s
  · rw [discard, abort]

section Kept

variable (m : Byte) (s : State)

@[simp] theorem exitChecks_cmd : (exitChecks m s).cmd = s.cmd :=
  exitChecks_keeps (field := (·.cmd)) calAbort_cmd profDiscard_cmd m s
@[simp] theorem exitChecks_trk : (exitChecks m s).trk = s.trk :=
  exitChecks_keeps (field := (·.trk)) calAbort_trk profDiscard_trk m s
@[simp] theorem exitChecks_posSp : (exitChecks m s).posSp = s.posSp :=
  exitChecks_keeps (field := (·.posSp)) calAbort_posSp profDiscard_posSp m s
@[simp] theorem exitChecks_lastFault : (exitChecks m s).lastFault = s.lastFault :=
  exitChecks_keeps (field := (·.lastFault)) calAbort_lastFault profDiscard_lastFault m s
@[simp] theorem exitChecks_faultCount : (exitChecks m s).faultCount = s.faultCount :=
  exitChecks_keeps (field := (·.faultCount)) calAbort_faultCount profDiscard_faultCount m s
@[simp] theorem exitChecks_lastEnc : (exitChecks m s).lastEnc = s.lastEnc :=
  (exitChecks_frame m s).lastEnc
@[simp] theorem exitChecks_out : (exitChecks m s).out = s.out :=
  exitChecks_keeps (field := (·.out)) calAbort_out profDiscard_out m s
@[simp] theorem exitChecks_tickFresh : (exitChecks m s).tickFresh = s.tickFresh :=
  (exitChecks_frame m s).tickFresh

end Kept

/-- Settles O15: `exitChecks_eq`, with the abort written out. -/
theorem exitChecksEndForeignSequences : Obligations.ExitChecksEndForeignSequences := by
  unfold Obligations.ExitChecksEndForeignSequences
  exact exitChecks_eq

/-! The phases of a tick (R130) -/

/-- LAST_ENC is the residue itself: it is at most IN.enc, so no bit of it is lost (R130). -/
theorem sampledEnc_toNat (p : Params) (inp : TickIn) : (sampledEnc p inp).toNat = inp.enc.toNat % p.ppr := by
  rw [sampledEnc, BitVec.toNat_ofNat]
  exact Nat.mod_eq_of_lt ((Nat.mod_le _ _).trans_lt inp.enc.isLt)

/-- TRACK_UPDATE with the sampled position, the residue written out (R130, R260). -/
theorem trackRaw_sampledEnc (p : Params) (inp : TickIn) (t : Tracker) :
    trackRaw p (sampledEnc p inp) t =
      { abs := BitVec.ofInt 16
          (((t.abs.toNat : Int) + smod (((inp.enc.toNat % p.ppr : Nat) : Int) - (t.prevRaw.toNat : Int)) p.ppr)
            % (p.ppr : Int))
        prevRaw := sampledEnc p inp } := by
  rw [trackRaw, sampledEnc_toNat]
  rfl

/-- The instruction that a mode byte decodes to means the branch that phase 4 runs for it (R90, R132). -/
theorem exec_decode_mode (m : Byte) (s : State) :
    exec (decode (.mode m)) s = .next (dispatch m s.tickFresh s) := by
  obtain ⟨rfl, h⟩ | ⟨rfl, h⟩ | ⟨rfl, h⟩ | ⟨rfl, h⟩ | ⟨⟨h0, h1, h3, h255⟩, h⟩ := dispatch_cases m s.tickFresh s
  · rw [h]; rfl
  · rw [h]; rfl
  · rw [h]; rfl
  · rw [h]; rfl
  · have unrecognized : decode (.mode m) = .modeUnrecognized m :=
      decodeMode_unrecognized ((recognizedMode_eq_false_iff m).mpr ⟨h0, h1, h3, h255⟩)
    rw [h, unrecognized]
    rfl

/-- Settles O14: phases 1 and 2 are `commandRead`, the exit checks keep the freshness that phase 4 hands to the branch
of the mode byte, and the publish ends the tick. -/
theorem tickRunsItsPhases : Obligations.TickRunsItsPhases := by
  unfold Obligations.TickRunsItsPhases
  intro inp s
  refine ⟨dispatch s.cmd.mode s.cmdFresh (exitChecks s.cmd.mode (commandRead inp s)), ?branch, rfl⟩
  case branch =>
    have read := commandRead_eq inp s
    rw [trackRaw_sampledEnc] at read
    rw [exec_decode_mode, exitChecks_tickFresh]
    exact congrArg (fun r => Host.Outcome.next (dispatch s.cmd.mode s.cmdFresh (exitChecks s.cmd.mode r))) read.symm

/-! Ticks that end in SAFE_OFF (R133, R134, R138, R139) -/

@[simp] theorem modeUnrecognized_cmd (s : State) : (modeUnrecognized s).cmd = { s.cmd with mode := 0 } := rfl
@[simp] theorem modeUnrecognized_lastFault (s : State) : (modeUnrecognized s).lastFault = 2 := rfl
@[simp] theorem modeUnrecognized_faultCount (s : State) :
    (modeUnrecognized s).faultCount = bumpCount s.faultCount := rfl

/-- SAFE_OFF leaves the safe state (R133). -/
theorem safeOff_safeState (s : State) : (safeOff s).SafeState := by constructor <;> rfl

/-- An unrecognized mode leaves the safe state: neither the fault nor the reverted mode touches the actuation (R138). -/
theorem modeUnrecognized_safeState (s : State) : (modeUnrecognized s).SafeState := by constructor <;> rfl

theorem publish_safeState {s : State} (h : s.SafeState) : (publish s).SafeState where
  act := h.act
  drive := h.drive
  duty := h.duty
  curSp := h.curSp
  ploop := h.ploop
  cloop := h.cloop

/-- A tick in Idle or PanicStop runs SAFE_OFF after the exit checks and publishes (R134, R139). -/
theorem tickStep_of_off {s : State} (hm : s.cmd.mode = 0 ∨ s.cmd.mode = 255) (inp : TickIn) :
    tickStep inp s = publish (safeOff (exitChecks s.cmd.mode (commandRead inp s))) := by
  rw [tickStep_eq]
  obtain h | h := hm <;> rw [h] <;> rfl

/-- A tick in an unrecognized mode runs the branch of R138 after the exit checks and publishes. -/
theorem tickStep_of_unrecognized {s : State} (h0 : s.cmd.mode ≠ 0) (h1 : s.cmd.mode ≠ 1) (h3 : s.cmd.mode ≠ 3)
    (h255 : s.cmd.mode ≠ 255) (inp : TickIn) :
    tickStep inp s = publish (modeUnrecognized (exitChecks s.cmd.mode (commandRead inp s))) := by
  rw [tickStep_eq]
  obtain ⟨h, -⟩ | ⟨h, -⟩ | ⟨h, -⟩ | ⟨h, -⟩ | ⟨-, h⟩ := dispatch_cases s.cmd.mode s.cmdFresh
    (exitChecks s.cmd.mode (commandRead inp s))
  · exact absurd h h0
  · exact absurd h h1
  · exact absurd h h3
  · exact absurd h h255
  · rw [h]

/-- A tick in Idle or PanicStop switches off and records no fault (R134, R139). -/
theorem tickStep_off {s : State} (hm : s.cmd.mode = 0 ∨ s.cmd.mode = 255) (inp : TickIn) :
    (tickStep inp s).SafeState ∧ (tickStep inp s).lastFault = s.lastFault ∧
      (tickStep inp s).faultCount = s.faultCount := by
  rw [tickStep_of_off hm]
  exact ⟨publish_safeState (safeOff_safeState _), exitChecks_lastFault _ _, exitChecks_faultCount _ _⟩

/-- Settles O18: both branches are SAFE_OFF, and neither 0 nor 255 owns a calibration or a profile. -/
theorem idleAndPanicStopSwitchOff : Obligations.IdleAndPanicStopSwitchOff := by
  unfold Obligations.IdleAndPanicStopSwitchOff
  refine ⟨fun s => ?branches, fun inp s hm => ⟨tickStep inp s, exec_tick inp s, ?tick⟩⟩
  case branches =>
    simp only [List.forall_mem_cons]
    exact ⟨congrArg Host.Outcome.next (safeOff_eq s), congrArg Host.Outcome.next (safeOff_eq s), by simp⟩
  case tick =>
    obtain ⟨safe, fault, count⟩ := tickStep_off hm inp
    have foreign : s.cmd.mode ≠ 3 ∧ s.cmd.mode ≠ 1 := by
      obtain h | h := hm <;> rw [h] <;> decide
    obtain ⟨hwalk, hcal⟩ := foreign
    refine ⟨safe, ?out, ?cmd, ?posSp, fault, count, ?trk, ?prof, ?cal, rfl⟩
    all_goals rw [tickStep_of_off hm]
    case out => rw [publish_out, safeOff_out, exitChecks_out]; rfl
    case cmd => exact exitChecks_cmd _ _
    case posSp => exact exitChecks_posSp _ _
    case trk => simp [commandRead_eq]
    case prof => exact exitChecks_prof_active hwalk _
    case cal => exact exitChecks_cal_flag hcal _

/-- Settles O19: the branch reverts the mode to Idle, so the next tick is one that records no fault. -/
theorem unrecognizedModeFaultsOnce : Obligations.UnrecognizedModeFaultsOnce := by
  unfold Obligations.UnrecognizedModeFaultsOnce
  refine ⟨fun m s => rfl, fun inp inp' s h0 h1 h3 h255 => ?twoTicks⟩
  case twoTicks =>
    have first := tickStep_of_unrecognized h0 h1 h3 h255 inp
    have safe : (tickStep inp s).SafeState := first ▸ publish_safeState (modeUnrecognized_safeState _)
    have reverted : (tickStep inp s).cmd = { s.cmd with mode := 0 } := by
      rw [first, publish_cmd, modeUnrecognized_cmd, exitChecks_cmd]
      rfl
    have fault : (tickStep inp s).lastFault = 2 := by
      rw [first, publish_lastFault, modeUnrecognized_lastFault]
    have count : (tickStep inp s).faultCount = bumpCount s.faultCount := by
      rw [first, publish_faultCount, modeUnrecognized_faultCount, exitChecks_faultCount]
      rfl
    have idle : (tickStep inp s).cmd.mode = 0 := by rw [reverted]
    obtain ⟨safe', fault', count'⟩ := tickStep_off (.inl idle) inp'
    exact ⟨tickStep inp s, tickStep inp' (tickStep inp s), exec_tick inp s, safe, reverted, fault,
      count ▸ bumpCount_toNat _, exec_tick inp' _, safe', fault'.trans fault, count'⟩

end Sys2Proof.Machine
end

section
/-! The calibration branch (42_calibration.md): the step that CAL.flag and CAL.step select (R161), the 10 ms gate
(R162), the sensor-wait timeout (R164), the debounce (R166), and each step's whole effect. The steps 1 and 4 wait for a
sensor in the same way, which `awaitSensor` says once. -/

namespace Sys2Proof.Machine

theorem exec_modeCalibrate (s : State) : exec .modeCalibrate s = .next (calBranch s) := rfl

/-! The step selected (R161) -/

section Selected

variable {s : State}

theorem calBranch_of_notRunning (h : s.cal.flag = false ∨ s.cal.step.toNat = 0 ∨ 6 ≤ s.cal.step.toNat) :
    calBranch s = calEnter s := by
  obtain ⟨-, enters⟩ | running | running | running | running | running := calBranch_cases s
  · exact enters
  all_goals
    obtain ⟨flag, step, -⟩ := running
    rw [flag, step] at h
    exact absurd h (by decide)

theorem calBranch_of_step1 (flag : s.cal.flag = true) (step : s.cal.step = 1) : calBranch s = calProbe s := by
  rw [calBranch, if_pos flag, step]; rfl

theorem calBranch_of_step2 (flag : s.cal.flag = true) (step : s.cal.step = 2) : calBranch s = calSweep s := by
  rw [calBranch, if_pos flag, step]; rfl

theorem calBranch_of_step3 (flag : s.cal.flag = true) (step : s.cal.step = 3) :
    calBranch s = calResetDetector s := by
  rw [calBranch, if_pos flag, step]; rfl

theorem calBranch_of_step4 (flag : s.cal.flag = true) (step : s.cal.step = 4) : calBranch s = calSearch s := by
  rw [calBranch, if_pos flag, step]; rfl

theorem calBranch_of_step5 (flag : s.cal.flag = true) (step : s.cal.step = 5) : calBranch s = calExit s := by
  rw [calBranch, if_pos flag, step]; rfl

end Selected

/-! The gate (R162) and the ramp (R165, R170) -/

/-- The window index fits the 32-bit register, so no bit of it is lost (R162). -/
theorem gateWindow_toNat (now : Word) : (gateWindow now).toNat = now.toNat / 10 :=
  (BitVec.toNat_ofNat ..).trans (Nat.mod_eq_of_lt ((Nat.div_le_self _ _).trans_lt now.isLt))

theorem gateFires_iff (s : State) : gateFires s = true ↔ s.tickIn.now.toNat / 10 ≠ s.cal.gateWin.toNat := by
  rw [gateFires, bne_iff_ne, ← gateWindow_toNat, Ne, Ne, BitVec.toNat_inj]

theorem not_gateFires {s : State} (h : s.tickIn.now.toNat / 10 = s.cal.gateWin.toNat) : ¬gateFires s = true :=
  fun fires => (gateFires_iff s).mp fires h

theorem rampDown_newWindow {s : State} (h : s.tickIn.now.toNat / 10 ≠ s.cal.gateWin.toNat) :
    rampDown s =
      { s with
        cal := { s.cal with gateWin := BitVec.ofNat 32 (s.tickIn.now.toNat / 10) }
        posSp := BitVec.ofInt 16 (((s.posSp.toNat : Int) - 1) % (s.params.ppr : Int)) } := by
  rw [rampDown, if_pos ((gateFires_iff s).mpr h)]; rfl

theorem rampDown_sameWindow {s : State} (h : s.tickIn.now.toNat / 10 = s.cal.gateWin.toNat) : rampDown s = s :=
  if_neg (not_gateFires h)

/-! The sensor-wait timeout (R164) -/

theorem calTimedOut_iff (s : State) : calTimedOut s = true ↔ Claims.timedOut s := by
  rw [calTimedOut, Bool.and_eq_true, bne_iff_ne, decide_eq_true_iff, Claims.timedOut, ← elapsed_eq, Int.ofNat_le]

theorem calTimeout_eq (s : State) : calTimeout s = Claims.timedOutState s s.cal := rfl

/-- A step that waits for a sensor and has not seen it: it times out, or descends and runs the loops (R165, R170). -/
def awaitSensor (s : State) : State :=
  if calTimedOut s then calTimeout s else runLoops s.params.calPosOutLimit (rampDown s)

section Await

variable {s : State}

theorem awaitSensor_timedOut (h : Claims.timedOut s) : awaitSensor s = Claims.timedOutState s s.cal :=
  (if_pos ((calTimedOut_iff s).mpr h)).trans (calTimeout_eq s)

theorem awaitSensor_waiting (h : ¬Claims.timedOut s) :
    awaitSensor s = runLoops s.params.calPosOutLimit (rampDown s) :=
  if_neg fun late => h ((calTimedOut_iff s).mp late)

theorem awaitSensor_newWindow (h : ¬Claims.timedOut s) (window : s.tickIn.now.toNat / 10 ≠ s.cal.gateWin.toNat) :
    awaitSensor s =
      runLoops s.params.calPosOutLimit
        { s with
          cal := { s.cal with gateWin := BitVec.ofNat 32 (s.tickIn.now.toNat / 10) }
          posSp := BitVec.ofInt 16 (((s.posSp.toNat : Int) - 1) % (s.params.ppr : Int)) } := by
  rw [awaitSensor_waiting h, rampDown_newWindow window]

theorem awaitSensor_sameWindow (h : ¬Claims.timedOut s) (window : s.tickIn.now.toNat / 10 = s.cal.gateWin.toNat) :
    awaitSensor s = runLoops s.params.calPosOutLimit s := by
  rw [awaitSensor_waiting h, rampDown_sameWindow window]

end Await

/-! The probe: the debounce (R166) and the hard stop (R165, R167) -/

theorem overThreshold_iff (s : State) : overThreshold s = true ↔ s.params.calIThresh < s.lastCur.toNat :=
  decide_eq_true_iff

/-- CAL as DEBOUNCE leaves it (R166): the window opens, goes on, or is dropped. -/
def debouncedCal (s : State) : Calibration :=
  if s.params.calIThresh < s.lastCur.toNat then
    (if s.cal.dbActive = true then s.cal else { s.cal with dbActive := true, dbStart := s.tickIn.now })
  else { s.cal with dbActive := false }

theorem debounceMark_eq_debouncedCal (s : State) : debounceMark s = { s with cal := debouncedCal s } := by
  unfold debounceMark debouncedCal
  by_cases exceeds : s.params.calIThresh < s.lastCur.toNat
  · rw [if_pos ((overThreshold_iff s).mpr exceeds), if_pos exceeds]
    split <;> rfl
  · rw [if_neg (mt (overThreshold_iff s).mp exceeds), if_neg exceeds]

/-- DEBOUNCE changes no field of CAL but the debounce window, so it moves neither the timeout nor the gate (R166). -/
theorem debouncedCal_keeps {α : Type} {field : Calibration → α}
    (window : ∀ c a w, field { c with dbActive := a, dbStart := w } = field c) (s : State) :
    field (debouncedCal s) = field s.cal := by
  obtain ⟨a, w, marked⟩ := debounceMark_eq s
  rw [debounceMark_eq_debouncedCal] at marked
  calc field (debouncedCal s) = field { s.cal with dbActive := a, dbStart := w } :=
        congrArg (fun t : State => field t.cal) marked
    _ = field s.cal := window s.cal a w

theorem debouncedCal_stepStart (s : State) : (debouncedCal s).stepStart = s.cal.stepStart :=
  debouncedCal_keeps (field := (·.stepStart)) (fun _ _ _ => rfl) s

theorem debouncedCal_gateWin (s : State) : (debouncedCal s).gateWin = s.cal.gateWin :=
  debouncedCal_keeps (field := (·.gateWin)) (fun _ _ _ => rfl) s

/-- The current is above the threshold and has been so for the debounce time (R166). -/
def StopSeen (s : State) : Prop :=
  s.params.calIThresh < s.lastCur.toNat ∧
    (s.params.debounceMs : Int) ≤ ((s.tickIn.now.toNat : Int) - (debouncedCal s).dbStart.toNat) % 2 ^ 32

theorem debounceDone_debounceMark_iff (s : State) : debounceDone (debounceMark s) = true ↔ StopSeen s := by
  rw [debounceMark_eq_debouncedCal, debounceDone, Bool.and_eq_true, overThreshold_iff, decide_eq_true_iff, StopSeen,
    ← elapsed_eq, Int.ofNat_le]

theorem timedOut_debounced_iff (s : State) :
    Claims.timedOut { s with cal := debouncedCal s } ↔ Claims.timedOut s := by
  unfold Claims.timedOut
  rw [debouncedCal_stepStart]

section Probe

variable {s : State}

theorem calProbe_of_stop (h : StopSeen s) : calProbe s = hardStop { s with cal := debouncedCal s } :=
  calc calProbe s = hardStop (debounceMark s) := if_pos ((debounceDone_debounceMark_iff s).mpr h)
    _ = _ := by rw [debounceMark_eq_debouncedCal]

theorem calProbe_of_noStop (h : ¬StopSeen s) : calProbe s = awaitSensor { s with cal := debouncedCal s } :=
  calc calProbe s = awaitSensor (debounceMark s) := if_neg (mt (debounceDone_debounceMark_iff s).mp h)
    _ = _ := by rw [debounceMark_eq_debouncedCal]

end Probe

/-- Settles O24: the stop is decided on the debounced record; without it the probe waits for the sensor in the state
with that record, whose timeout and gate are those of the given state. -/
theorem calibrateProbesForTheStop : Obligations.CalibrateProbesForTheStop := by
  unfold Obligations.CalibrateProbesForTheStop
  intro s flag step
  rw [exec_modeCalibrate, calBranch_of_step1 flag step]
  have waiting : ¬Claims.timedOut s → ¬Claims.timedOut { s with cal := debouncedCal s } :=
    mt (timedOut_debounced_iff s).mp
  have gate := congrArg BitVec.toNat (debouncedCal_gateWin s)
  refine ⟨fun stop => ?stops, fun noStop late => ?timesOut, fun noStop notLate window => ?descends,
    fun noStop notLate window => ?holds⟩
  case stops => exact congrArg _ (calProbe_of_stop stop)
  case timesOut =>
    exact congrArg _ ((calProbe_of_noStop noStop).trans
      (awaitSensor_timedOut ((timedOut_debounced_iff s).mpr late)))
  case descends =>
    exact congrArg _ ((calProbe_of_noStop noStop).trans
      (awaitSensor_newWindow (waiting notLate) (gate ▸ window)))
  case holds =>
    exact congrArg _ ((calProbe_of_noStop noStop).trans
      (awaitSensor_sameWindow (waiting notLate) (gate ▸ window)))

/-! The search (R170) -/

/-- Settles O27: the edge is looked at first; without it the search waits for the sensor as the probe does. -/
theorem calibrateSearchesForTheEdge : Obligations.CalibrateSearchesForTheEdge := by
  unfold Obligations.CalibrateSearchesForTheEdge
  intro s flag step
  rw [exec_modeCalibrate, calBranch_of_step4 flag step]
  have unseen (h : s.tickIn.hallDet = false) : calSearch s = awaitSensor s := if_neg (by rw [h]; decide)
  refine ⟨fun seen => ?finds, fun notSeen late => ?timesOut, fun notSeen notLate window => ?descends,
    fun notSeen notLate window => ?holds⟩
  case finds =>
    have found : calSearch s = edgeFound s := if_pos seen
    exact congrArg _ found
  case timesOut => exact congrArg _ ((unseen notSeen).trans (awaitSensor_timedOut late))
  case descends => exact congrArg _ ((unseen notSeen).trans (awaitSensor_newWindow notLate window))
  case holds => exact congrArg _ ((unseen notSeen).trans (awaitSensor_sameWindow notLate window))

/-! The sweep (R168) -/

section Sweep

variable {s : State}

theorem sweepMove_atTarget (h : s.posSp = sweepTarget s) :
    sweepMove s = { s with cal := { s.cal with step := 3, stepStart := s.tickIn.now } } :=
  if_pos h

theorem sweepMove_newWindow (h : s.posSp ≠ sweepTarget s)
    (window : s.tickIn.now.toNat / 10 ≠ s.cal.gateWin.toNat) :
    sweepMove s = takeSample (pulseUp (gateMark s)) := by
  rw [sweepMove, if_neg h, if_pos ((gateFires_iff s).mpr window)]

theorem sweepMove_sameWindow (h : s.posSp ≠ sweepTarget s)
    (window : s.tickIn.now.toNat / 10 = s.cal.gateWin.toNat) : sweepMove s = s := by
  rw [sweepMove, if_neg h, if_neg (not_gateFires window)]

theorem takeSample_of_room (h : s.cal.scount.toNat < s.params.sampleN) :
    takeSample s =
      { s with
        cal :=
          { s.cal with
            samples := s.cal.samples.set s.cal.scount.toNat s.tickIn.hallAdc
            scount := BitVec.ofNat 8 (s.cal.scount.toNat + 1) } } :=
  if_pos h

theorem takeSample_of_full (h : s.params.sampleN ≤ s.cal.scount.toNat) : takeSample s = s :=
  if_neg (Nat.not_lt.mpr h)

/-- CAL_SWEEP runs the loops, whatever its move was (R168). -/
theorem calSweep_of_move {t : State} (move : sweepMove s = t) : calSweep s = runLoops s.params.calPosOutLimit t :=
  congrArg (runLoops s.params.calPosOutLimit) move

end Sweep

/-- Settles O25: the loops run from what `sweepMove` leaves; the pulse and the gate's mark keep the sample buffer, so
its room is that of the given state. -/
theorem calibrateSweeps : Obligations.CalibrateSweeps := by
  unfold Obligations.CalibrateSweeps
  intro s flag step
  rw [exec_modeCalibrate, calBranch_of_step2 flag step]
  refine ⟨fun arrived => ?arrives, fun away window room => ?samples, fun away window full => ?climbs,
    fun away window => ?holds⟩
  case arrives => exact congrArg _ (calSweep_of_move (sweepMove_atTarget arrived))
  case samples =>
    have sampled := takeSample_of_room (s := pulseUp (gateMark s)) room
    exact congrArg _ (calSweep_of_move ((sweepMove_newWindow away window).trans sampled))
  case climbs =>
    have unsampled := takeSample_of_full (s := pulseUp (gateMark s)) full
    exact congrArg _ (calSweep_of_move ((sweepMove_newWindow away window).trans unsampled))
  case holds => exact congrArg _ (calSweep_of_move (sweepMove_sameWindow away window))

/-! The steps without a choice: Enter (R163), the detector reset (R169) and Exit (R171) -/

/-- Settles O23: outside the steps 1 to 5 of a running calibration the branch is CAL_ENTER. -/
theorem calibrateEnters : Obligations.CalibrateEnters := by
  unfold Obligations.CalibrateEnters
  intro s notRunning
  rw [exec_modeCalibrate, calBranch_of_notRunning notRunning, calEnter_eq]
  rfl

/-- Settles O26: step 3 is CAL_RESET_DETECTOR, one run of the loops after the reset. -/
theorem calibrateResetsDetector : Obligations.CalibrateResetsDetector := by
  unfold Obligations.CalibrateResetsDetector
  intro s flag step
  rw [exec_modeCalibrate, calBranch_of_step3 flag step, calResetDetector_eq]

/-- CAL_EXIT leaves CAL.step alone (R171). -/
theorem calExit_eq (s : State) :
    calExit s =
      { s with
        gainsP := s.savedP, gainsC := s.savedC
        cal :=
          { s.cal with
            flag := false, samples := List.replicate s.params.sampleN 0, scount := 0, dbActive := false }
        out := { s.out with act := .disable }, drive := .off, duty := 0, curSp := 0
        ploop := .zero, cloop := .zero, cmd := { s.cmd with mode := 0 } } := rfl

/-- Settles O28: step 5 is CAL_EXIT, and the step it leaves alone is 5. -/
theorem calibrateExits : Obligations.CalibrateExits := by
  unfold Obligations.CalibrateExits
  intro s flag step
  rw [exec_modeCalibrate, calBranch_of_step5 flag step, calExit_eq, ← step]

end Sys2Proof.Machine
end

section
/-! The walk branch (43_profile.md): the rejection of a degenerate command (R203), the completion of a segment and its
setpoint (R206, R200), and PROFILE_S as the floor of the exact trapezoid, whose three curves are given over ℚ (R205). -/

namespace Sys2Proof.Machine

theorem exec_modeWalkForward (s : State) : exec .modeWalkForward s = .next (walkBranch s.tickFresh s) := rfl

/-! The rejection (R203) -/

/-- The two time bytes are the high and the low byte of the 16-bit duration (R83). -/
theorem time16_toNat (c : MotionCommand) : (time16 c).toNat = 256 * c.timeA.toNat + c.timeB.toNat :=
  target16_toNat { c with targetA := c.timeA, targetB := c.timeB }

theorem degenerate_iff (s : State) :
    degenerate s = true ↔ 256 * s.cmd.timeA.toNat + s.cmd.timeB.toNat ≤ 2 * s.params.tAd := by
  rw [degenerate, decide_eq_true_iff, time16_toNat]

/-- A tick derives a profile after a commit, and whenever no profile is active (R200). -/
theorem walkBranch_of_derives {fresh : Bool} {s : State} (derives : fresh = true ∨ s.prof.active = false) :
    walkBranch fresh s = if degenerate s then profReject s else walkSegment (profDerive s) :=
  if_pos (by simpa using derives)

theorem walkBranch_of_inProgress {fresh : Bool} {s : State} (hf : fresh = false) (ha : s.prof.active = true) :
    walkBranch fresh s = walkSegment s :=
  if_neg (by simp [hf, ha])

/-- PROF_REJECT is one record update (R203). -/
theorem profReject_eq (s : State) :
    profReject s =
      { s with
        prof := { s.prof with active := false }
        out := { s.out with act := .disable }, drive := .off, duty := 0, curSp := 0
        ploop := .zero, cloop := .zero
        lastFault := 3, faultCount := bumpCount s.faultCount
        cmd := { s.cmd with mode := 0 } } := rfl

/-- Settles O33: the branch would derive a profile, finds the command degenerate, and is PROF_REJECT. -/
theorem walkRejectsDegenerateCommand : Obligations.WalkRejectsDegenerateCommand := by
  unfold Obligations.WalkRejectsDegenerateCommand
  intro s derives short
  rw [exec_modeWalkForward, walkBranch_of_derives derives, if_pos ((degenerate_iff s).mpr short), profReject_eq,
    bumpCount]

/-! The segment in progress (R200, R204, R206) -/

/-- PROF_COMPLETE is one record update (R206). -/
theorem profComplete_eq (s : State) :
    profComplete s =
      { s with
        lastKnown := s.lastEnc
        posSp := position s.params ((s.prof.startPos.toNat : Int) + s.prof.dist.toNat)
        prof := { s.prof with active := false }
        out := { s.out with act := .disable }, drive := .off, duty := 0, curSp := 0
        ploop := .zero, cloop := .zero, cmd := { s.cmd with mode := 0 } } := rfl

theorem segmentTime_eq (s : State) :
    (segmentTime s : Int) = ((s.tickIn.now.toNat : Int) - s.prof.startTime.toNat) % 2 ^ 32 :=
  elapsed_eq s.tickIn.now s.prof.startTime

theorem walkSegment_of_elapsed {s : State} (h : s.prof.dur.toNat ≤ segmentTime s) : walkSegment s = profComplete s :=
  if_pos h

theorem walkSegment_of_running {s : State} (h : segmentTime s < s.prof.dur.toNat) :
    walkSegment s = runLoops s.params.posOutLimit { s with posSp := profileSetpoint s } :=
  if_neg (Nat.not_le.mpr h)

/-- Settles O35: without a new command the branch is that of the active profile, decided by the elapsed time. -/
theorem walkFollowsAndCompletes : Obligations.WalkFollowsAndCompletes := by
  unfold Obligations.WalkFollowsAndCompletes
  intro s notFresh active
  rw [exec_modeWalkForward, walkBranch_of_inProgress notFresh active, ← segmentTime_eq]
  refine ⟨fun late => ?completes, fun running => ?follows⟩
  case completes => rw [walkSegment_of_elapsed (Int.ofNat_le.mp late), profComplete_eq, position]
  case follows => rw [walkSegment_of_running (Int.ofNat_lt.mp running), profileSetpoint, profileDistance, position]

/-! The exact trapezoid (R205) -/

/-- The acceleration phase: the quadratic ramp. -/
def rampCurve (D T A t : ℚ) : ℚ := D * t * t / (2 * A * (T - A))

/-- The cruise phase. -/
def cruiseCurve (D T A t : ℚ) : ℚ := D * (2 * t - A) / (2 * (T - A))

/-- The deceleration phase: the mirrored ramp. -/
def brakeCurve (D T A t : ℚ) : ℚ := D * (2 * A * (T - A) - (T - t) * (T - t)) / (2 * A * (T - A))

/-- The cruise velocity. -/
def cruiseVelocity (D T A : ℚ) : ℚ := D / (T - A)

section Curves

variable {D T A : ℚ}

theorem cruiseCurve_add (h : A < T) (t x : ℚ) :
    cruiseCurve D T A (t + x) = cruiseCurve D T A t + cruiseVelocity D T A * x := by
  have span : T - A ≠ 0 := (sub_pos.mpr h).ne'
  unfold cruiseCurve cruiseVelocity
  field_simp
  ring

/-- The ramp expanded at its end: it meets the cruise in position and in velocity. -/
theorem rampCurve_at_boundary (hA : 0 < A) (h : A < T) (x : ℚ) :
    rampCurve D T A (A + x) =
      cruiseCurve D T A A + cruiseVelocity D T A * x + cruiseVelocity D T A / A * x * x / 2 := by
  have span : T - A ≠ 0 := (sub_pos.mpr h).ne'
  unfold rampCurve cruiseCurve cruiseVelocity
  field_simp
  ring

/-- The mirrored ramp expanded at its start: it leaves the cruise in position and in velocity. -/
theorem brakeCurve_at_boundary (hA : 0 < A) (h : A < T) (x : ℚ) :
    brakeCurve D T A (T - A + x) =
      cruiseCurve D T A (T - A) + cruiseVelocity D T A * x - cruiseVelocity D T A / A * x * x / 2 := by
  have span : T - A ≠ 0 := (sub_pos.mpr h).ne'
  unfold brakeCurve cruiseCurve cruiseVelocity
  field_simp
  ring

end Curves

/-- fdiv is the floor of the exact quotient (R11). -/
theorem fdiv_eq_floor (a : Int) {b : Int} (hb : 0 ≤ b) : fdiv a b = ⌊(a : ℚ) / b⌋ := by
  lift b to ℕ using hb
  exact (Rat.floor_intCast_div_natCast a b).symm

section Floors

variable {D T A t : Int}

theorem profileS_ramp (hA : 0 ≤ A) (hT : A ≤ T) (h : t < A) : profileS D T A t = ⌊rampCurve D T A t⌋ := by
  have span : 0 ≤ 2 * A * (T - A) := mul_nonneg (by omega) (by omega)
  rw [profileS, if_pos h, fdiv_eq_floor _ span, rampCurve]
  push_cast
  rfl

theorem profileS_cruise (hT : A ≤ T) (h : A ≤ t) (h' : t ≤ T - A) :
    profileS D T A t = ⌊cruiseCurve D T A t⌋ := by
  rw [profileS, if_neg (not_lt.mpr h), if_pos h', fdiv_eq_floor _ (by omega), cruiseCurve]
  push_cast
  rfl

theorem profileS_brake (hA : 0 ≤ A) (hT : A ≤ T) (h : A ≤ t) (h' : T - A < t) :
    profileS D T A t = ⌊brakeCurve D T A t⌋ := by
  have span : 0 ≤ 2 * A * (T - A) := mul_nonneg (by omega) (by omega)
  rw [profileS, if_neg (not_lt.mpr h), if_neg (not_le.mpr h'), fdiv_eq_floor _ span, brakeCurve]
  push_cast
  rfl

/-- Without a ramp the whole segment is the cruise. -/
theorem profileS_noRamp (h0 : 0 ≤ t) (hT : t < T) : profileS D T 0 t = fdiv (D * t) T := by
  rw [profileS, if_neg (not_lt.mpr h0), if_pos (by omega), sub_zero, sub_zero, mul_left_comm]
  exact Int.mul_ediv_mul_of_pos _ _ two_pos

end Floors

/-- Settles O36: each phase of PROFILE_S is the floor of its curve, and the curves meet at the two boundaries. -/
theorem profileIsFloorOfTrapezoid : Obligations.ProfileIsFloorOfTrapezoid := by
  unfold Obligations.ProfileIsFloorOfTrapezoid
  intro D T A short
  have hT : (A : ℚ) < T := by exact_mod_cast (by omega : A < T)
  refine ⟨fun t ht => ?floors, cruiseCurve_add hT, fun hA x => ?boundaries, fun hA t ht => ?noRamp⟩
  case floors =>
    split_ifs with ramp cruise
    · exact profileS_ramp (by omega) (by omega) (by omega)
    · exact profileS_cruise (by omega) (by omega) (by omega)
    · exact profileS_brake (by omega) (by omega) (by omega) (by omega)
  case boundaries =>
    have pos : (0 : ℚ) < A := Nat.cast_pos.mpr hA
    exact ⟨rampCurve_at_boundary pos hT x, brakeCurve_at_boundary pos hT x⟩
  case noRamp =>
    subst hA
    exact profileS_noRamp (by omega) (by omega)

end Sys2Proof.Machine
end

section
/-! The controllers (44_controllers.md): PID_STEP over the rationals (R232), the decimation of the derivative along the runs
from a zeroing (R233), and the cascade of the two loops (R231, R234 to R236). -/

namespace Sys2Proof.Machine

/-! One PID step (R232) -/

/-- cdiv is the ceiling of the exact quotient (R11). -/
theorem cdiv_eq_ceil (a : Int) {b : Int} (hb : 0 ≤ b) : cdiv a b = ⌈(a : ℚ) / b⌉ := by
  lift b to ℕ using hb
  exact (Rat.ceil_intCast_div_natCast a b).symm

section Saturation

variable {i u lo hi : Int}

theorem pidSaturate_above (h : hi < u) (g : Gains) (e i lo : Int) (k : Nat) :
    pidSaturate g e i u lo hi k =
      (hi, if g.ki.toNat > 0 then min i (sat32 (fdiv (hi * 2 ^ k - g.kp.toNat * e) g.ki.toNat)) else i) :=
  if_pos h

theorem pidSaturate_below (h : u ≤ hi) (h' : u < lo) (g : Gains) (e i : Int) (k : Nat) :
    pidSaturate g e i u lo hi k =
      (lo, if g.ki.toNat > 0 then max i (sat32 (cdiv (lo * 2 ^ k - g.kp.toNat * e) g.ki.toNat)) else i) :=
  (if_neg (not_lt.mpr h)).trans (if_pos h')

theorem pidSaturate_inside (h : u ≤ hi) (h' : lo ≤ u) (g : Gains) (e i : Int) (k : Nat) :
    pidSaturate g e i u lo hi k = (u, i) :=
  (if_neg (not_lt.mpr h)).trans (if_neg (not_lt.mpr h'))

end Saturation

/-- A run samples the derivative when its phase is 0 (R233); the phase is unsigned. -/
theorem sampling_iff (l : LoopState) : l.dcount = 0 ↔ l.dcount.toNat = 0 := BitVec.toNat_inj.symm

theorem pidDerivative_eq (l : LoopState) (e : Int) :
    pidDerivative l e = if l.dcount.toNat = 0 then sat32 (e - l.errPrev.toInt) else l.deriv.toInt := by
  simp only [pidDerivative, sampling_iff]

theorem pidSampleErr_eq (l : LoopState) (e : Int) :
    pidSampleErr l e = if l.dcount.toNat = 0 then e else l.errPrev.toInt := by
  simp only [pidSampleErr, sampling_iff]

/-- The unsaturated output of PID_STEP (R232). -/
def pidUnsaturated (l : LoopState) (g : Gains) (e : Int) (k : Nat) : Int :=
  fdiv (pidRaw g e (pidAccumulate l e) (pidDerivative l e)) (2 ^ k)

/-- The unsaturated output is the floor of the exact sum shifted by S (R232). -/
theorem pidUnsaturated_eq_floor (l : LoopState) (g : Gains) (e : Int) (k : Nat) :
    pidUnsaturated l g e k = ⌊((pidRaw g e (pidAccumulate l e) (pidDerivative l e) : Int) : ℚ) / 2 ^ k⌋ := by
  rw [pidUnsaturated, fdiv_eq_floor _ (by positivity)]
  push_cast
  rfl

/-- A PID step returns what the saturation of its unsaturated output gives, and the integral register holds it (R232). -/
theorem pidStep_saturates (n : Nat) (l : LoopState) (g : Gains) (e lo hi : Int) (k : Nat) :
    ((pidStep n l g e lo hi k).2, (pidStep n l g e lo hi k).1.integ.toInt) =
      pidSaturate g e (pidAccumulate l e) (pidUnsaturated l g e k) lo hi k :=
  Prod.ext (pidStep_output n l g e lo hi k) (pidStep_integ n l g e lo hi k)

/-- Settles O38: the registers hold the terms of the step, and the saturation is that of the floor, case by case. -/
theorem pidStepComputesTheRule : Obligations.PidStepComputesTheRule := by
  unfold Obligations.PidStepComputesTheRule
  intro nD l g e lo hi shift h1 h255 hl hu kp ki kd i d u r
  have he : -2 ^ 31 ≤ e ∧ e ≤ 2 ^ 31 - 1 := ⟨hl, by omega⟩
  have hd : pidDerivative l e = d := pidDerivative_eq l e
  have hout : pidUnsaturated l g e shift = u := by rw [pidUnsaturated_eq_floor, hd]; rfl
  have hsat : (r.2, r.1.integ.toInt) = pidSaturate g e i u lo hi shift := by
    rw [← hout]; exact pidStep_saturates nD l g e lo hi shift
  have hki : 0 < ki ↔ 0 < g.ki.toNat := Int.natCast_pos
  refine ⟨pidStep_err he .., (pidStep_errPrev he ..).trans (pidSampleErr_eq l e), (pidStep_deriv ..).trans hd,
    pidStep_dcount ⟨h1, h255⟩ .., fun above => ?above, fun notAbove below => ?below, fun notAbove notBelow => ?inside⟩
  case above =>
    rw [pidSaturate_above above, fdiv_eq_floor _ (Int.natCast_nonneg _)] at hsat
    simp only [hki]
    exact Prod.mk.inj hsat
  case below =>
    rw [pidSaturate_below notAbove below, cdiv_eq_ceil _ (Int.natCast_nonneg _)] at hsat
    simp only [hki]
    exact Prod.mk.inj hsat
  case inside =>
    rw [pidSaturate_inside notAbove notBelow] at hsat
    exact Prod.mk.inj hsat

/-! The runs from a zeroing (R233) -/

section Runs

open Sys2Proof.Claims

variable {nD : Nat} (hn : 1 ≤ nD ∧ nD ≤ 255) {e : Nat → Int} (he : ∀ k, -32767 ≤ e k ∧ e k ≤ 32767)
variable (g : Gains) (lo hi : Int) (shift : Nat)

theorem loopRuns_succ (nD : Nat) (e : Nat → Int) (k : Nat) :
    loopRuns nD g lo hi shift e (k + 1) = (pidStep nD (loopRuns nD g lo hi shift e k) g (e k) lo hi shift).1 := rfl

include hn in
/-- The phase counts the runs mod N_D. -/
theorem loopRuns_dcount (k : Nat) : (loopRuns nD g lo hi shift e k).dcount.toNat = k % nD := by
  induction k with
  | zero => exact (Nat.zero_mod nD).symm
  | succ k ih => rw [loopRuns_succ, pidStep_dcount hn, ih, Nat.mod_add_mod]

include hn in
/-- Run k samples exactly when N_D divides k. -/
theorem loopRuns_samples_iff (k : Nat) : (loopRuns nD g lo hi shift e k).dcount.toNat = 0 ↔ nD ∣ k := by
  rw [loopRuns_dcount hn, Nat.dvd_iff_mod_eq_zero]

include hn he

/-- After run k the sampled error is that of the latest run that N_D divides. -/
theorem loopRuns_errPrev (k : Nat) :
    (loopRuns nD g lo hi shift e (k + 1)).errPrev.toInt = e (nD * (k / nD)) := by
  have step (k : Nat) : (loopRuns nD g lo hi shift e (k + 1)).errPrev.toInt =
      if nD ∣ k then e k else (loopRuns nD g lo hi shift e k).errPrev.toInt := by
    have := he k
    rw [loopRuns_succ, pidStep_errPrev (by omega), pidSampleErr_eq]
    simp only [loopRuns_samples_iff hn]
  induction k with
  | zero => rw [step, if_pos (dvd_zero nD), Nat.zero_div, mul_zero]
  | succ k ih =>
    rw [step]
    split_ifs with sample
    · rw [Nat.mul_div_cancel' sample]
    · rw [ih, Nat.succ_div_of_not_dvd sample]

/-- The error at the sample before run k: 0 before the first (R233). -/
theorem loopRuns_errPrev_before (k : Nat) (sample : nD ∣ k) :
    (loopRuns nD g lo hi shift e k).errPrev.toInt = if k / nD = 0 then 0 else e (nD * (k / nD - 1)) := by
  cases k with
  | zero => rw [Nat.zero_div]; rfl
  | succ k =>
    rw [loopRuns_errPrev hn he, Nat.succ_div_of_dvd sample, if_neg (Nat.succ_ne_zero _), Nat.add_sub_cancel]

/-- At a sample the derivative is the difference of two errors, too small to be saturated (R241). -/
theorem loopRuns_deriv_of_sample (k : Nat) (sample : nD ∣ k) :
    (loopRuns nD g lo hi shift e (k + 1)).deriv.toInt =
      e k - if k / nD = 0 then 0 else e (nD * (k / nD - 1)) := by
  have now := he k
  have before := he (nD * (k / nD - 1))
  rw [loopRuns_succ, pidStep_deriv, pidDerivative_eq, if_pos ((loopRuns_samples_iff hn g lo hi shift k).mpr sample),
    loopRuns_errPrev_before hn he g lo hi shift k sample]
  apply sat32_of_range <;> split <;> omega

omit he in
theorem loopRuns_deriv_of_hold (k : Nat) (hold : ¬ nD ∣ k) :
    (loopRuns nD g lo hi shift e (k + 1)).deriv.toInt = (loopRuns nD g lo hi shift e k).deriv.toInt := by
  rw [loopRuns_succ, pidStep_deriv, pidDerivative_eq,
    if_neg (mt (loopRuns_samples_iff hn g lo hi shift k).mp hold)]

/-- After run k the derivative is the difference of the errors at the latest two samples. -/
theorem loopRuns_deriv (k : Nat) :
    (loopRuns nD g lo hi shift e (k + 1)).deriv.toInt =
      e (nD * (k / nD)) - if k / nD = 0 then 0 else e (nD * (k / nD - 1)) := by
  induction k with
  | zero => simpa using loopRuns_deriv_of_sample hn he g lo hi shift 0 (dvd_zero nD)
  | succ k ih =>
    by_cases sample : nD ∣ k + 1
    · rw [loopRuns_deriv_of_sample hn he g lo hi shift (k + 1) sample, Nat.mul_div_cancel' sample]
    · rw [loopRuns_deriv_of_hold hn g lo hi shift (k + 1) sample, ih, Nat.succ_div_of_not_dvd sample]

end Runs

/-- Settles O40: one lemma for each of the three registers that the decimation uses. -/
theorem derivativeIsDecimated : Obligations.DerivativeIsDecimated := by
  unfold Obligations.DerivativeIsDecimated
  intro nD g lo hi shift e h1 h255 he
  have hn : 1 ≤ nD ∧ nD ≤ 255 := ⟨h1, h255⟩
  exact ⟨rfl, fun k => ⟨loopRuns_dcount hn g lo hi shift (k + 1), loopRuns_errPrev hn he g lo hi shift k,
    loopRuns_deriv hn he g lo hi shift k⟩⟩

/-! The cascade (R231, R234 to R236) -/

/-- The current loop runs on the magnitude of the current setpoint less LAST_CUR (R235). -/
theorem runCurrentLoop_eq (up : Int) (s : State) :
    runCurrentLoop up s =
      pidStep s.params.nD s.cloop s.gainsC (|up| - (s.lastCur.toNat : Int)) 0 s.params.dutyMax s.params.sC := by
  rw [runCurrentLoop, Int.natCast_natAbs]

theorem driveOf_driveDir (up : Int) : driveOf (driveDir up) = if 0 ≤ up then .fwd else .bwd :=
  apply_ite driveOf (0 ≤ up) .fwd .bwd

/-- RUN_LOOPS is one record update (R234). -/
theorem runLoops_eq (limit : Nat) (s : State) :
    let pos := runPositionLoop limit s
    let cur := runCurrentLoop pos.2 s
    runLoops limit s =
      { s with
        ploop := pos.1, cloop := cur.1
        curSp := BitVec.ofInt 16 pos.2, duty := BitVec.ofInt 16 cur.2
        drive := if 0 ≤ pos.2 then .fwd else .bwd
        out :=
          { s.out with
            act := .drive (if 0 ≤ pos.2 then .fwd else .bwd) (BitVec.ofInt 16 cur.2) .signMagnitude } } := by
  intro pos cur
  rw [← driveOf_driveDir]
  rfl

/-- Settles O41: `runLoops_eq`, with the ranges of the position error and of the two outputs. -/
theorem cascadeDrivesTheBridge : Obligations.CascadeDrivesTheBridge := by
  unfold Obligations.CascadeDrivesTheBridge
  intro limit s r ep pos ec cur
  have hpos : -(limit : Int) ≤ pos.2 ∧ pos.2 ≤ limit := runPositionLoop_range limit s
  have hcur : runCurrentLoop pos.2 s = cur := runCurrentLoop_eq pos.2 s
  have hduty : 0 ≤ cur.2 ∧ cur.2 ≤ s.params.dutyMax := hcur ▸ runCurrentLoop_range pos.2 s
  refine ⟨hcur ▸ runLoops_eq limit s, fun valid => ?positionError, fun hlim hlast => ?currentError, fun hlim => ?setpoint,
    fun hmax => ?duty⟩
  case positionError =>
    have hppr := valid.ppr
    have hrange : -(s.params.ppr : Int) ≤ 2 * ep ∧ 2 * ep < s.params.ppr :=
      smod_range ((s.posSp.toNat : Int) - s.trk.abs.toNat) (by omega)
    omega
  case currentError =>
    have hmag : |pos.2| ≤ limit := abs_le.mpr hpos
    have := abs_nonneg pos.2
    omega
  case setpoint => exact ⟨toInt_ofInt16 (by omega) (by omega), hpos⟩
  case duty => exact ⟨toNat_ofInt16 hduty.1 (by omega), hduty.2⟩

end Sys2Proof.Machine
end

section
/-! The tracker through a tick (45_tracker.md R261, R262). Phase 1 updates TRK, and after it only the hard stop writes
TRK: the other operations of phases 3 and 4 keep it, so each branch either keeps TRK or ends in a hard stop. -/

namespace Sys2Proof.Machine

/-! What keeps TRK -/

section Kept

variable (s : State)

@[simp] theorem debounceMark_trk : (debounceMark s).trk = s.trk := by
  rw [debounceMark_eq_debouncedCal]

@[simp] theorem rampDown_trk : (rampDown s).trk = s.trk := by
  obtain ⟨-, h⟩ | ⟨-, h⟩ := rampDown_cases s <;> rw [h]
  · exact pulseDown_trk (gateMark s)

@[simp] theorem takeSample_trk : (takeSample s).trk = s.trk := by
  obtain ⟨-, h⟩ | ⟨-, h⟩ := takeSample_cases s <;> rw [h]

@[simp] theorem sweepMove_trk : (sweepMove s).trk = s.trk := by
  obtain ⟨-, h⟩ | ⟨-, -, h⟩ | ⟨-, -, h⟩ := sweepMove_cases s <;> rw [h]
  · rw [takeSample_trk, pulseUp_trk, gateMark_trk]

theorem calEnter_trk : (calEnter s).trk = s.trk := by
  rw [calEnter_eq, runLoops_trk]

theorem calSweep_trk : (calSweep s).trk = s.trk := by
  rw [calSweep, runLoops_trk, sweepMove_trk]

theorem calResetDetector_trk : (calResetDetector s).trk = s.trk := by
  rw [calResetDetector_eq, runLoops_trk]

/-- The encoder reset at the edge leaves the tracker alone (R170, R265). -/
theorem calSearch_trk : (calSearch s).trk = s.trk := by
  obtain ⟨-, h⟩ | ⟨-, -, h⟩ | ⟨-, -, h⟩ := calSearch_cases s <;> rw [h]
  · exact edgeFound_trk s
  · exact calTimeout_trk s
  · rw [runLoops_trk, rampDown_trk]

theorem walkSegment_trk : (walkSegment s).trk = s.trk := by
  obtain ⟨-, h⟩ | ⟨-, h⟩ := walkSegment_cases s <;> rw [h]
  · exact profComplete_trk s
  · exact runLoops_trk _ _

theorem walkBranch_trk (fresh : Bool) : (walkBranch fresh s).trk = s.trk := by
  obtain ⟨-, -, h⟩ | ⟨-, -, h⟩ | ⟨-, -, h⟩ := walkBranch_cases fresh s <;> rw [h]
  · exact profReject_trk s
  · rw [walkSegment_trk, profDerive_trk]
  · exact walkSegment_trk s

/-- Calibrate owns a running calibration: its exit checks keep CAL (R131). -/
theorem exitChecks_calibrate_cal : (exitChecks 1 s).cal = s.cal := by
  have owned : abortForeign 1 s = s := if_neg fun ⟨_, foreign⟩ => foreign rfl
  rw [exitChecks_eq, owned]
  split <;> rfl

end Kept

/-! What resets TRK -/

/-- What a hard stop leaves: TRK zeroed, in the tick that resets the encoder and goes on to step 2 (R167, R262). -/
structure HardStopped (t : State) : Prop where
  trk : t.trk = { abs := 0, prevRaw := 0 }
  encReset : t.out.encReset = true
  step : t.cal.step = 2

theorem hardStop_hardStopped (s : State) : HardStopped (hardStop s) := by constructor <;> rfl

theorem publish_hardStopped {s : State} (h : HardStopped s) : HardStopped (publish s) where
  trk := h.trk
  encReset := h.encReset
  step := h.step

/-- The probe keeps TRK unless it detects the stop (R165, R167). -/
theorem calProbe_trk (s : State) : (calProbe s).trk = s.trk ∨ HardStopped (calProbe s) := by
  obtain ⟨-, h⟩ | ⟨-, -, h⟩ | ⟨-, -, h⟩ := calProbe_cases s <;> rw [h]
  · exact .inr (hardStop_hardStopped _)
  · exact .inl (by rw [calTimeout_trk, debounceMark_trk])
  · exact .inl (by rw [runLoops_trk, rampDown_trk, debounceMark_trk])

/-- Of the calibration steps only step 1 can reset TRK (R262). -/
theorem calBranch_trk (s : State) :
    (calBranch s).trk = s.trk ∨ (HardStopped (calBranch s) ∧ s.cal.flag = true ∧ s.cal.step = 1) := by
  obtain ⟨-, h⟩ | ⟨flag, step, h⟩ | ⟨-, -, h⟩ | ⟨-, -, h⟩ | ⟨-, -, h⟩ | ⟨-, -, h⟩ := calBranch_cases s <;> rw [h]
  · exact .inl (calEnter_trk s)
  · exact (calProbe_trk s).imp_right fun stopped => ⟨stopped, flag, step⟩
  · exact .inl (calSweep_trk s)
  · exact .inl (calResetDetector_trk s)
  · exact .inl (calSearch_trk s)
  · exact .inl (calExit_trk s)

/-- Of the mode branches only Calibrate can reset TRK (R262). -/
theorem dispatch_trk (m : Byte) (fresh : Bool) (s : State) :
    (dispatch m fresh s).trk = s.trk ∨
      (HardStopped (dispatch m fresh s) ∧ m = 1 ∧ s.cal.flag = true ∧ s.cal.step = 1) := by
  obtain ⟨-, h⟩ | ⟨calibrate, h⟩ | ⟨-, h⟩ | ⟨-, h⟩ | ⟨-, h⟩ := dispatch_cases m fresh s <;> rw [h]
  · exact .inl (safeOff_trk s)
  · exact (calBranch_trk s).imp_right fun ⟨stopped, running⟩ => ⟨stopped, calibrate, running⟩
  · exact .inl (walkBranch_trk s fresh)
  · exact .inl (safeOff_trk s)
  · exact .inl rfl

/-! The tick -/

/-- LAST_ENC after a tick is the reading of its phase 1 (R130). -/
theorem tickStep_lastEnc (inp : TickIn) (s : State) : (tickStep inp s).lastEnc = sampledEnc s.params inp :=
  (tick_frame inp s).lastEnc

/-- A tick leaves TRK as its phase 1 updated it, or ends in the hard stop of calibration step 1 (R261, R262). -/
theorem tickStep_trk (inp : TickIn) (s : State) :
    (tickStep inp s).trk = trackRaw s.params (sampledEnc s.params inp) s.trk ∨
      (HardStopped (tickStep inp s) ∧ s.cmd.mode = 1 ∧ s.cal.flag = true ∧ s.cal.step = 1) := by
  rw [tickStep_eq]
  obtain kept | ⟨stopped, calibrate, flag, step⟩ :=
    dispatch_trk s.cmd.mode s.cmdFresh (exitChecks s.cmd.mode (commandRead inp s))
  · exact .inl (kept.trans (exitChecks_trk s.cmd.mode (commandRead inp s)))
  · rw [calibrate, exitChecks_calibrate_cal] at flag step
    exact .inr ⟨publish_hardStopped stopped, calibrate, flag, step⟩

/-- Settles O43: `tickStep_trk`, with the reading that phase 1 tracks kept in LAST_ENC. -/
theorem trackerRunsInEveryTick : Obligations.TrackerRunsInEveryTick := by
  unfold Obligations.TrackerRunsInEveryTick
  intro inp s
  refine ⟨tickStep inp s, exec_tick inp s, tickStep_lastEnc inp s, ?tracker⟩
  rw [tickStep_lastEnc]
  obtain updated | ⟨stopped, calibrate, flag, step⟩ := tickStep_trk inp s
  · exact .inl updated
  · exact .inr ⟨stopped.trk, stopped.encReset, stopped.step, calibrate, flag, step⟩

end Sys2Proof.Machine
end

section
/-! The commit's two outcomes (40_mailbox.md R110, R111; 60_exceptions.md R302). -/

namespace Sys2Proof.Machine

/-- A refused commit records INVALID_COMMAND and drops PEND (R110, R302). -/
theorem commit_of_refused {s : State} (h : commitSucceeds s = false) :
    commit s = { s with lastFault := 1, faultCount := bumpCount s.faultCount, pend := .zero } := by
  obtain ⟨ht, -⟩ | ⟨-, hc⟩ := commit_cases s
  · exact absurd (ht.symm.trans h) (by decide)
  · exact hc

/-- The default VALIDATE refuses no PEND (R111). -/
theorem commitSucceeds_of_default {s : State} (h : s.params.validate = .default) : commitSucceeds s = true :=
  (commitSucceeds_iff s).mpr (.inl (by rw [h, Validator.default_accepts]))

/-- Settles O9: `commitSucceeds_iff` is the condition, and each outcome of `commit_cases` one record update. -/
theorem commitReplacesOrDrops : Obligations.CommitReplacesOrDrops := by
  unfold Obligations.CommitReplacesOrDrops
  intro d s
  simp only [← commitSucceeds_iff]
  refine ⟨decode_writeWord 0x0007 d, fun succeeds => ?replaced, fun refused => ?dropped, commitSucceeds_of_default⟩
  case replaced =>
    rw [exec_wCommit, commit_of_succeeds succeeds]
    rfl
  case dropped =>
    rw [exec_wCommit, commit_of_refused (Bool.eq_false_of_not_eq_true refused)]
    rfl

end Sys2Proof.Machine
end

section
/-! The power-on reset (70_reset_and_hazards.md R340): the rows of its table are the fields of `State.resetWith`. -/

namespace Sys2Proof.Machine

/-- This implementation resets as any other, at its own parameters (R8, R340). -/
theorem reset_eq_resetWith_params : State.reset = State.resetWith State.reset.params := rfl

/-- The SNAP row: the reset state reads as if PUBLISH had just run on it (R36, R140). -/
theorem publish_resetWith (p : Params) : publish (State.resetWith p) = State.resetWith p := rfl

theorem resetWith_snap (p : Params) : (State.resetWith p).snap = imageOf (State.resetWith p) := by
  rw [← publish_snap, publish_resetWith]

/-- Settles O44: every row is a field as `State.resetWith` writes it, but the SNAP row, which is `resetWith_snap`. -/
theorem resetSetsEveryElement : Obligations.ResetSetsEveryElement := by
  unfold Obligations.ResetSetsEveryElement
  exact ⟨reset_eq_resetWith_params, fun p =>
    ⟨rfl, rfl, rfl, rfl, -- R8, R23 to R25
      rfl, rfl, rfl, rfl, -- R26, R27
      rfl, rfl, rfl, rfl, rfl, -- R28 to R31
      rfl, rfl, rfl, rfl, rfl, -- R32, R33
      rfl, rfl, rfl, rfl, -- R34, R35
      resetWith_snap p, rfl⟩⟩

end Sys2Proof.Machine
end

section
/-! Decoding and encoding are inverse to each other (30_encoding.md R80 to R92): every row of the table is told apart by
its fields, and the two catch-all rows stand for what the other rows leave. -/

namespace Sys2Proof

/-! Decoding an encoded instruction -/

theorem writableAddr_eq_false_iff (a : Addr) : writableAddr a = false ↔ 8 ≤ a.toNat :=
  decide_eq_false_iff_not.trans Nat.not_le

/-- Settles O1: a BUS row is read back by its fields, a mode row by its byte, and the catch-all rows by the words that
well-formedness leaves them. -/
theorem decodeEncodeAgree : Obligations.DecodeEncodeAgree := by
  unfold Obligations.DecodeEncodeAgree
  intro i wf
  cases i with
  | wMode d => exact decode_busWord true 0x0000 d
  | wTargetA d => exact decode_busWord true 0x0001 d
  | wTargetB d => exact decode_busWord true 0x0002 d
  | wTimeA d => exact decode_busWord true 0x0003 d
  | wTimeB d => exact decode_busWord true 0x0004 d
  | wNewData d => exact decode_busWord true 0x0005 d
  | wChecksum d => exact decode_busWord true 0x0006 d
  | wCommit d => exact decode_busWord true 0x0007 d
  | wUnmapped a d =>
    have readOnly : 8 ≤ a.toNat := (writableAddr_eq_false_iff a).mp (by simpa [Instr.wf] using wf)
    exact (decode_busWord true a d).trans (decodeWrite_unmapped readOnly d)
  | r a d => exact decode_busWord false a d
  | modeIdle => rfl
  | modeCalibrate => rfl
  | modeWalkForward => rfl
  | modePanicStop => rfl
  | modeUnrecognized m =>
    have unrecognized : recognizedMode m = false := by simpa [Instr.wf] using wf
    exact decodeMode_unrecognized unrecognized
  | tick inp => rfl

/-! Encoding a decoded input -/

/-- The rows of the writes keep both fields of the word (R84, R86). -/
theorem encode_decodeWrite (a : Addr) (d : Byte) : encode (decodeWrite a d) = .bus (busWord true a d) := by
  rw [decodeWrite_eq_ite]
  split_ifs <;> subst_vars <;> rfl

/-- The catch-all row of the writes gets only the addresses above 7 (R107). -/
theorem decodeWrite_wf (a : Addr) (d : Byte) : (decodeWrite a d).wf = true := by
  by_cases readOnly : 8 ≤ a.toNat
  · rw [decodeWrite_unmapped readOnly]
    rw [Instr.wf, (writableAddr_eq_false_iff a).mpr readOnly]
    rfl
  · unfold decodeWrite
    split
    case h_9 =>
      simp only [imp_false] at *
      omega
    all_goals rfl

theorem decodeMode_wf_and_encode (b : Byte) : (decodeMode b).wf = true ∧ encode (decodeMode b) = .mode b := by
  cases recognized : recognizedMode b with
  | false =>
    rw [decodeMode_unrecognized recognized]
    exact ⟨by rw [Instr.wf, recognized]; rfl, rfl⟩
  | true =>
    have modes : b = 0 ∨ b = 1 ∨ b = 3 ∨ b = 255 := by simpa [recognizedMode, or_assoc] using recognized
    obtain rfl | rfl | rfl | rfl := modes <;> exact ⟨rfl, rfl⟩

/-- Settles O2: a word is given back by its fields, whatever row it decodes to, and a mode byte by its row. -/
theorem encodeDecodeAgree : Obligations.EncodeDecodeAgree := by
  unfold Obligations.EncodeDecodeAgree
  intro c
  cases c with
  | bus w =>
    have word := busWord_fields w
    show (decodeBus w).wf = true ∧ encode (decodeBus w) = .bus w
    unfold decodeBus
    cases write : busIsWrite w <;> rw [write] at word
    case true => exact ⟨decodeWrite_wf _ _, (encode_decodeWrite _ _).trans (congrArg Code.bus word)⟩
    case false => exact ⟨rfl, congrArg Code.bus word⟩
  | mode b => exact decodeMode_wf_and_encode b
  | tick inp => exact ⟨rfl, rfl⟩

/-- Settles O5: the table's lengths select the format, and each word is read by its fields. -/
theorem wordsOfTheSpecDecode : Obligations.WordsOfTheSpecDecode := by
  unfold Obligations.WordsOfTheSpecDecode
  decide

end Sys2Proof
end

section
/-! The invariant without the actuation (10_state.md R40). A tick switches OUT off before it dispatches (R130), so in the
middle of a tick OUT and DRIVE may disagree; the rest of the invariant is kept by every operation. -/

namespace Sys2Proof.Machine

/-- The invariant but for `State.GoodDrive`. -/
structure State.GoodBase (s : State) : Prop where
  params : s.params.Valid
  positions : s.GoodPositions
  cal : s.GoodCal
  ploop : s.ploop.Good s.params
  cloop : s.cloop.Good s.params
  lastCur : s.lastCur.toNat ≤ 32767
  lastFault : s.lastFault.toNat ≤ 4
  ramp : s.prof.active = true → 2 * s.prof.tad.toNat < s.prof.dur.toNat

theorem inv_iff (s : State) : s.Inv ↔ s.GoodBase ∧ s.GoodDrive :=
  ⟨fun h => ⟨{ h with }, h.drive⟩, fun ⟨h, drive⟩ => { h with drive }⟩

section Operations

variable {s : State}

theorem State.GoodBase.ppr_pos (h : s.GoodBase) : 0 < s.params.ppr := by
  have := h.params.ppr
  omega

/-- A reduced position of a good state is in [0, PPR) (R9). -/
theorem State.GoodBase.position_lt (h : s.GoodBase) (x : Int) : (position s.params x).toNat < s.params.ppr :=
  Machine.position_lt h.ppr_pos h.params.ppr.2 x

/-! The shared operations -/

theorem safeOff_goodBase (h : s.GoodBase) : (safeOff s).GoodBase :=
  { h with
    positions := { h.positions with }, cal := { h.cal with }
    ploop := zero_good h.params, cloop := zero_good h.params }

theorem runLoops_goodBase (k : Nat) (h : s.GoodBase) : (runLoops k s).GoodBase :=
  { h with
    positions := { h.positions with }, cal := { h.cal with }
    ploop := pidStep_good h.params .., cloop := pidStep_good h.params .. }

theorem faultCode_le (f : FaultName) : (faultCode f).toNat ≤ 4 := by cases f <;> decide

theorem raiseFault_goodBase (f : FaultName) (h : s.GoodBase) : (raiseFault f s).GoodBase :=
  { h with positions := { h.positions with }, cal := { h.cal with }, lastFault := faultCode_le f }

theorem revertMode_goodBase (v : Byte) (h : s.GoodBase) : (revertMode v s).GoodBase :=
  { h with positions := { h.positions with }, cal := { h.cal with } }

theorem publish_goodBase (h : s.GoodBase) : (publish s).GoodBase :=
  { h with positions := { h.positions with }, cal := { h.cal with } }

theorem setPosSp_goodBase {v : Half} (hv : v.toNat < s.params.ppr) (h : s.GoodBase) :
    State.GoodBase { s with posSp := v } :=
  { h with positions := { h.positions with posSp := hv }, cal := { h.cal with } }

/-! Calibration (42_calibration.md) -/

/-- A write of CAL keeps the invariant when the new record is in its ranges (R31). -/
theorem setCal_goodBase {c : Calibration} (ref : c.ref.toNat < s.params.ppr)
    (cal : State.GoodCal { s with cal := c }) (h : s.GoodBase) : State.GoodBase { s with cal := c } :=
  { h with positions := { h.positions with ref }, cal }

/-- An emptied sample buffer of SAMPLE_N entries (R163, R171, R172). -/
theorem clearedSamples_length (p : Params) : (clearedSamples p).length = p.sampleN := List.length_replicate

theorem calAbort_goodBase (h : s.GoodBase) : (calAbort s).GoodBase :=
  { h with
    positions := { h.positions with }
    cal :=
      { step := Nat.zero_le 5, running := nofun, scount := Nat.zero_le _, samples := clearedSamples_length _ }
    ploop := zero_good h.params, cloop := zero_good h.params }

theorem calTimeout_goodBase (h : s.GoodBase) : (calTimeout s).GoodBase :=
  revertMode_goodBase 255 (raiseFault_goodBase _ (safeOff_goodBase (calAbort_goodBase h)))

theorem hardStop_goodBase (h : s.GoodBase) : (hardStop s).GoodBase :=
  { h with
    positions :=
      { h.positions with abs := h.ppr_pos, prevRaw := h.ppr_pos, posSp := h.ppr_pos, ref := h.ppr_pos }
    cal := { h.cal with step := by show 2 ≤ 5; decide, running := fun _ => by show 1 ≤ 2; decide }
    ploop := zero_good h.params, cloop := zero_good h.params }

theorem edgeFound_goodBase (h : s.GoodBase) : (edgeFound s).GoodBase :=
  { h with
    positions := { h.positions with lastKnown := h.ppr_pos, posSp := h.ppr_pos }
    cal := { h.cal with step := by show 5 ≤ 5; decide, running := fun _ => by show 1 ≤ 5; decide }
    ploop := zero_good h.params, cloop := zero_good h.params }

theorem calExit_goodBase (h : s.GoodBase) : (calExit s).GoodBase :=
  { h with
    positions := { h.positions with }
    cal := { h.cal with running := nofun, scount := Nat.zero_le _, samples := clearedSamples_length _ }
    ploop := zero_good h.params, cloop := zero_good h.params }

theorem calEnter_goodBase (h : s.GoodBase) : (calEnter s).GoodBase :=
  have entered : (enteredCal s).ref.toNat < s.params.ppr := h.ppr_pos
  runLoops_goodBase _
    { h with
      positions := { h.positions with posSp := h.positions.abs, ref := entered }
      cal :=
        { step := by show 1 ≤ 5; decide, running := fun _ => Nat.le_refl 1
          scount := Nat.zero_le _, samples := clearedSamples_length _ }
      ploop := zero_good h.params, cloop := zero_good h.params }

/-- A running calibration that goes on to a step of R160. -/
theorem nextStep_goodBase {n : Byte} (hn : 1 ≤ n.toNat ∧ n.toNat ≤ 5) (w : Word) (h : s.GoodBase) :
    State.GoodBase { s with cal := { s.cal with step := n, stepStart := w } } :=
  setCal_goodBase h.positions.ref { h.cal with step := hn.2, running := fun _ => hn.1 } h

theorem debounceMark_goodBase (h : s.GoodBase) : (debounceMark s).GoodBase := by
  obtain ⟨a, w, marked⟩ := debounceMark_eq s
  rw [marked]
  exact setCal_goodBase h.positions.ref { h.cal with } h

theorem gateMark_goodBase (h : s.GoodBase) : (gateMark s).GoodBase :=
  setCal_goodBase h.positions.ref { h.cal with } h

theorem rampDown_goodBase (h : s.GoodBase) : (rampDown s).GoodBase := by
  obtain ⟨-, moved⟩ | ⟨-, held⟩ := rampDown_cases s
  · rw [moved]
    exact setPosSp_goodBase (h.position_lt _) (gateMark_goodBase h)
  · rwa [held]

/-- A sample is stored while there is room, so SCOUNT stays in its 8 bits (R31, R168). -/
theorem takeSample_goodBase (h : s.GoodBase) : (takeSample s).GoodBase := by
  obtain ⟨room, stored⟩ | ⟨-, full⟩ := takeSample_cases s
  · rw [stored]
    have count : (BitVec.ofNat 8 (s.cal.scount.toNat + 1)).toNat ≤ s.params.sampleN := by
      rw [BitVec.toNat_ofNat]
      omega
    exact setCal_goodBase h.positions.ref
      { h.cal with scount := count, samples := List.length_set.trans h.cal.samples } h
  · rwa [full]

theorem sweepMove_goodBase (h : s.GoodBase) : (sweepMove s).GoodBase := by
  obtain ⟨-, arrived⟩ | ⟨-, -, moved⟩ | ⟨-, -, held⟩ := sweepMove_cases s
  · rw [arrived]
    exact nextStep_goodBase (by decide) _ h
  · rw [moved]
    exact takeSample_goodBase (setPosSp_goodBase (h.position_lt _) (gateMark_goodBase h))
  · rwa [held]

theorem calProbe_goodBase (h : s.GoodBase) : (calProbe s).GoodBase := by
  have marked := debounceMark_goodBase h
  obtain ⟨-, stops⟩ | ⟨-, -, timesOut⟩ | ⟨-, -, goesOn⟩ := calProbe_cases s
  · exact stops ▸ hardStop_goodBase marked
  · exact timesOut ▸ calTimeout_goodBase marked
  · exact goesOn ▸ runLoops_goodBase _ (rampDown_goodBase marked)

theorem calSearch_goodBase (h : s.GoodBase) : (calSearch s).GoodBase := by
  obtain ⟨-, finds⟩ | ⟨-, -, timesOut⟩ | ⟨-, -, goesOn⟩ := calSearch_cases s
  · exact finds ▸ edgeFound_goodBase h
  · exact timesOut ▸ calTimeout_goodBase h
  · exact goesOn ▸ runLoops_goodBase _ (rampDown_goodBase h)

theorem calResetDetector_goodBase (h : s.GoodBase) : (calResetDetector s).GoodBase :=
  have emitted : (emitHallReset s).GoodBase :=
    { h with positions := { h.positions with }, cal := { h.cal with } }
  runLoops_goodBase _ (nextStep_goodBase (by decide) _ emitted)

theorem calBranch_goodBase (h : s.GoodBase) : (calBranch s).GoodBase := by
  obtain ⟨-, b⟩ | ⟨-, -, b⟩ | ⟨-, -, b⟩ | ⟨-, -, b⟩ | ⟨-, -, b⟩ | ⟨-, -, b⟩ := calBranch_cases s <;> rw [b]
  · exact calEnter_goodBase h
  · exact calProbe_goodBase h
  · exact runLoops_goodBase _ (sweepMove_goodBase h)
  · exact calResetDetector_goodBase h
  · exact calSearch_goodBase h
  · exact calExit_goodBase h

/-! Walk (43_profile.md) -/

theorem profDiscard_goodBase (h : s.GoodBase) : (profDiscard s).GoodBase :=
  { h with positions := { h.positions with }, cal := { h.cal with }, ramp := nofun }

theorem profReject_goodBase (h : s.GoodBase) : (profReject s).GoodBase :=
  revertMode_goodBase 0 (raiseFault_goodBase _ (safeOff_goodBase (profDiscard_goodBase h)))

theorem profComplete_goodBase (h : s.GoodBase) : (profComplete s).GoodBase :=
  { h with
    positions := { h.positions with lastKnown := h.positions.lastEnc, posSp := h.position_lt _ }
    cal := { h.cal with }
    ploop := zero_good h.params, cloop := zero_good h.params, ramp := nofun }

/-- T_AD fits the ramp register, so a command that is not degenerate derives a profile that is not (R201, R203). -/
theorem derivedProfile_ramp (h : s.params.Valid) (long : degenerate s = false) :
    2 * (derivedProfile s).tad.toNat < (derivedProfile s).dur.toNat := by
  have fits := h.tAd
  have : 2 * s.params.tAd < (time16 s.cmd).toNat := Nat.not_le.mp (of_decide_eq_false long)
  show 2 * (BitVec.ofNat 16 s.params.tAd).toNat < (time16 s.cmd).toNat
  rw [BitVec.toNat_ofNat]
  omega

theorem profDerive_goodBase (long : degenerate s = false) (h : s.GoodBase) : (profDerive s).GoodBase :=
  { h with
    positions := { h.positions with startPos := h.positions.abs, dist := h.position_lt _ }
    cal := { h.cal with }
    ploop := zero_good h.params, cloop := zero_good h.params
    ramp := fun _ => derivedProfile_ramp h.params long }

theorem walkSegment_goodBase (h : s.GoodBase) : (walkSegment s).GoodBase := by
  obtain ⟨-, completes⟩ | ⟨-, follows⟩ := walkSegment_cases s
  · exact completes ▸ profComplete_goodBase h
  · exact follows ▸ runLoops_goodBase _ (setPosSp_goodBase (h.position_lt _) h)

theorem walkBranch_goodBase (fresh : Bool) (h : s.GoodBase) : (walkBranch fresh s).GoodBase := by
  obtain ⟨-, -, rejects⟩ | ⟨-, long, derives⟩ | ⟨-, -, goesOn⟩ := walkBranch_cases fresh s
  · exact rejects ▸ profReject_goodBase h
  · exact derives ▸ walkSegment_goodBase (profDerive_goodBase long h)
  · exact goesOn ▸ walkSegment_goodBase h

/-! The tick (41_dispatcher.md) -/

theorem dispatch_goodBase (m : Byte) (fresh : Bool) (h : s.GoodBase) : (dispatch m fresh s).GoodBase := by
  obtain ⟨-, b⟩ | ⟨-, b⟩ | ⟨-, b⟩ | ⟨-, b⟩ | ⟨-, b⟩ := dispatch_cases m fresh s <;> rw [b]
  · exact safeOff_goodBase h
  · exact calBranch_goodBase h
  · exact walkBranch_goodBase fresh h
  · exact safeOff_goodBase h
  · exact revertMode_goodBase 0 (raiseFault_goodBase _ (safeOff_goodBase h))

theorem exitChecks_goodBase (m : Byte) (h : s.GoodBase) : (exitChecks m s).GoodBase := by
  obtain e | e | e | e := exitChecks_cases m s <;> rw [e]
  · exact h
  · exact calAbort_goodBase h
  · exact profDiscard_goodBase h
  · exact profDiscard_goodBase (calAbort_goodBase h)

/-- Phases 1 and 2 write reduced positions and a bounded current (R130). -/
theorem commandRead_goodBase (inp : TickIn) (h : s.GoodBase) : (commandRead inp s).GoodBase :=
  have enc := sampledEnc_lt h.ppr_pos h.params.ppr.2 inp
  { h with
    positions := { h.positions with abs := h.position_lt _, prevRaw := enc, lastEnc := enc }
    cal := { h.cal with }
    lastCur := sampledCur_le inp }

theorem tickStep_goodBase (inp : TickIn) (h : s.GoodBase) : (tickStep inp s).GoodBase := by
  rw [tickStep_eq]
  exact publish_goodBase (dispatch_goodBase _ _ (exitChecks_goodBase _ (commandRead_goodBase inp h)))

end Operations

end Sys2Proof.Machine
end

section
/-! What an instruction can do, said once: the outcomes of the calibration branch (42_calibration.md), the actuation with
which every branch ends (41_dispatcher.md), and the four kinds of instruction. -/

namespace Sys2Proof.Machine

/-! The calibration branch -/

/-- `c'` is in the same step of the same calibration as `c`: only the gate, the debounce and the samples moved. -/
structure SameStep (c c' : Calibration) : Prop where
  flag : c'.flag = c.flag
  step : c'.step = c.step
  stepStart : c'.stepStart = c.stepStart

theorem SameStep.refl (c : Calibration) : SameStep c c := ⟨rfl, rfl, rfl⟩

theorem SameStep.trans {c c' c'' : Calibration} (h : SameStep c c') (h' : SameStep c' c'') : SameStep c c'' :=
  ⟨h'.flag.trans h.flag, h'.step.trans h.step, h'.stepStart.trans h.stepStart⟩

theorem debouncedCal_sameStep (s : State) : SameStep s.cal (debouncedCal s) where
  flag := debouncedCal_keeps (field := (·.flag)) (fun _ _ _ => rfl) s
  step := debouncedCal_keeps (field := (·.step)) (fun _ _ _ => rfl) s
  stepStart := debouncedCal_stepStart s

theorem rampDown_sameStep (s : State) :
    ∃ c v, rampDown s = { s with cal := c, posSp := v } ∧ SameStep s.cal c := by
  obtain ⟨-, moved⟩ | ⟨-, held⟩ := rampDown_cases s
  · exact ⟨_, _, moved, rfl, rfl, rfl⟩
  · exact ⟨s.cal, s.posSp, held, .refl _⟩

theorem takeSample_sameStep (s : State) : ∃ c, takeSample s = { s with cal := c } ∧ SameStep s.cal c := by
  obtain ⟨-, stored⟩ | ⟨-, full⟩ := takeSample_cases s
  · exact ⟨_, stored, rfl, rfl, rfl⟩
  · exact ⟨s.cal, full, .refl _⟩

/-- The outcomes of CAL_BRANCH (R161, R163 to R171). -/
inductive CalOutcome (s : State) : State → Prop
  | enters (notRunning : s.cal.flag = false ∨ s.cal.step.toNat = 0 ∨ 6 ≤ s.cal.step.toNat) :
      CalOutcome s (calEnter s)
  | follows (running : s.cal.flag = true) {c : Calibration} (same : SameStep s.cal c) (v : Half) :
      CalOutcome s (runLoops s.params.calPosOutLimit { s with cal := c, posSp := v })
  | stops (running : s.cal.flag = true) (step : s.cal.step = 1) {c : Calibration} (same : SameStep s.cal c) :
      CalOutcome s (hardStop { s with cal := c })
  | arrives (running : s.cal.flag = true) (step : s.cal.step = 2) :
      CalOutcome s (runLoops s.params.calPosOutLimit
        { s with cal := { s.cal with step := 3, stepStart := s.tickIn.now } })
  | resetsDetector (running : s.cal.flag = true) (step : s.cal.step = 3) : CalOutcome s (calResetDetector s)
  | finds (running : s.cal.flag = true) (step : s.cal.step = 4) : CalOutcome s (edgeFound s)
  | timesOut (running : s.cal.flag = true) {c : Calibration} (same : SameStep s.cal c) :
      CalOutcome s (calTimeout { s with cal := c })
  | exits (running : s.cal.flag = true) : CalOutcome s (calExit s)

theorem calProbe_outcome {s : State} (running : s.cal.flag = true) (step : s.cal.step = 1) :
    CalOutcome s (calProbe s) := by
  have debounced := debouncedCal_sameStep s
  obtain ⟨-, stops⟩ | ⟨-, -, timesOut⟩ | ⟨-, -, goesOn⟩ := calProbe_cases s
  · rw [stops, debounceMark_eq_debouncedCal]
    exact .stops running step debounced
  · rw [timesOut, debounceMark_eq_debouncedCal]
    exact .timesOut running debounced
  · obtain ⟨c, v, ramp, same⟩ := rampDown_sameStep (debounceMark s)
    rw [debounceMark_eq_debouncedCal] at goesOn ramp same
    rw [goesOn, ramp]
    exact .follows running (debounced.trans same) v

theorem calSweep_outcome {s : State} (running : s.cal.flag = true) (step : s.cal.step = 2) :
    CalOutcome s (calSweep s) := by
  obtain ⟨-, arrived⟩ | ⟨-, -, moved⟩ | ⟨-, -, held⟩ := sweepMove_cases s
  · rw [calSweep, arrived]
    exact .arrives running step
  · obtain ⟨c, sample, same⟩ := takeSample_sameStep (pulseUp (gateMark s))
    have marked : SameStep s.cal (pulseUp (gateMark s)).cal := ⟨rfl, rfl, rfl⟩
    rw [calSweep, moved, sample]
    exact .follows running (marked.trans same) _
  · rw [calSweep, held]
    exact .follows running (.refl _) s.posSp

theorem calSearch_outcome {s : State} (running : s.cal.flag = true) (step : s.cal.step = 4) :
    CalOutcome s (calSearch s) := by
  obtain ⟨-, finds⟩ | ⟨-, -, timesOut⟩ | ⟨-, -, goesOn⟩ := calSearch_cases s
  · exact finds ▸ .finds running step
  · exact timesOut ▸ .timesOut running (.refl _)
  · obtain ⟨c, v, ramp, same⟩ := rampDown_sameStep s
    rw [goesOn, ramp]
    exact .follows running same v

theorem calBranch_outcome (s : State) : CalOutcome s (calBranch s) := by
  obtain ⟨notRunning, b⟩ | ⟨running, step, b⟩ | ⟨running, step, b⟩ | ⟨running, step, b⟩ | ⟨running, step, b⟩ |
    ⟨running, -, b⟩ := calBranch_cases s <;> rw [b]
  · exact .enters notRunning
  · exact calProbe_outcome running step
  · exact calSweep_outcome running step
  · exact .resetsDetector running step
  · exact calSearch_outcome running step
  · exact .exits running

/-! How a branch ends: SAFE_OFF or a run of the loops is its last act, and only a fault and the mode come after it -/

section Ends

variable {P : State → Prop} (off : ∀ u, P (safeOff u)) (fault : ∀ f u, P u → P (raiseFault f u))
  (revert : ∀ v u, P u → P (revertMode v u))

include off fault revert

theorem calBranch_ends {s : State} (loops : ∀ u, u.params = s.params → P (runLoops s.params.calPosOutLimit u)) :
    P (calBranch s) := by
  have outcome := calBranch_outcome s
  generalize calBranch s = t at outcome
  cases outcome with
  | enters => exact loops _ rfl
  | follows => exact loops _ rfl
  | stops => exact off _
  | arrives => exact loops _ rfl
  | resetsDetector => exact loops _ rfl
  | finds => exact off _
  | timesOut => exact revert 255 _ (fault .sensorTimeout _ (off _))
  | exits => exact revert 0 _ (off _)

theorem walkBranch_ends (fresh : Bool) {s : State}
    (loops : ∀ u, u.params = s.params → P (runLoops s.params.posOutLimit u)) : P (walkBranch fresh s) := by
  have segment (u : State) (hu : u.params = s.params) : P (walkSegment u) := by
    obtain ⟨-, completes⟩ | ⟨-, follows⟩ := walkSegment_cases u
    · rw [completes]
      exact revert 0 _ (off _)
    · have limit : u.params.posOutLimit = s.params.posOutLimit := by rw [hu]
      rw [follows, limit]
      exact loops _ hu
  obtain ⟨-, -, b⟩ | ⟨-, -, b⟩ | ⟨-, -, b⟩ := walkBranch_cases fresh s <;> rw [b]
  · exact revert 0 _ (fault .degenerateProfile _ (off _))
  · exact segment _ rfl
  · exact segment _ rfl

theorem dispatch_ends (m : Byte) (fresh : Bool) {s : State}
    (loops : ∀ k u, k = s.params.posOutLimit ∨ k = s.params.calPosOutLimit → u.params = s.params →
      P (runLoops k u)) : P (dispatch m fresh s) := by
  obtain ⟨-, b⟩ | ⟨-, b⟩ | ⟨-, b⟩ | ⟨-, b⟩ | ⟨-, b⟩ := dispatch_cases m fresh s <;> rw [b]
  · exact off s
  · exact calBranch_ends off fault revert fun u => loops _ u (.inr rfl)
  · exact walkBranch_ends off fault revert fresh fun u => loops _ u (.inl rfl)
  · exact off s
  · exact revert 0 _ (fault .unrecognizedMode _ (off s))

end Ends

/-! The four kinds of instruction: a field write or a read or a no-op, a commit, a mode branch, a tick -/

theorem exec_cases (i : Instr) (s : State) :
    (∃ p r, exec i s = .next { s with pend := p, resp := r }) ∨
    exec i s = .next (commit s) ∨
    (∃ m, (m = 1 → i = .modeCalibrate) ∧ exec i s = .next (dispatch m s.tickFresh s)) ∨
    (∃ inp, i = .tick inp ∧ exec i s = .next (tickStep inp s)) := by
  cases i with
  | wCommit d => exact .inr (.inl rfl)
  | modeIdle => exact .inr (.inr (.inl ⟨0, by decide, rfl⟩))
  | modeCalibrate => exact .inr (.inr (.inl ⟨1, fun _ => rfl, rfl⟩))
  | modeWalkForward => exact .inr (.inr (.inl ⟨3, by decide, rfl⟩))
  | modePanicStop => exact .inr (.inr (.inl ⟨255, by decide, rfl⟩))
  | modeUnrecognized m => exact .inr (.inr (.inl ⟨2, by simp, rfl⟩))
  | tick inp => exact .inr (.inr (.inr ⟨inp, rfl, rfl⟩))
  | _ => exact .inl ⟨_, _, rfl⟩

/-- A step executes an instruction in a state that differs only in what waits for the coming steps (R7, R311). -/
theorem step_cases (s : State) :
    ∃ i held events draws,
      step s = exec i { s with held := held, events := events, draws := draws } := by
  have taken (e : Event) (u : State) : ∃ held, (takeEvent e u).2 = { u with held := held } := by
    cases e with
    | bus w => exact ⟨u.held, rfl⟩
    | tick inp during => exact ⟨_, rfl⟩
  refine ⟨decode (fetch s).1, ?_⟩
  rw [step]
  obtain ⟨w, ws, -, fetched⟩ | ⟨e, es, -, -, fetched⟩ | ⟨-, -, fetched⟩ := fetch_cases s
  · exact ⟨ws, s.events, s.draws, by rw [fetched]⟩
  · obtain ⟨held, left⟩ := taken e { s with events := es }
    exact ⟨held, es, s.draws, by rw [fetched, left]⟩
  · obtain ⟨held, left⟩ := taken (Config.event s.draws) { s with draws := s.draws + 1 }
    exact ⟨held, s.events, s.draws + 1, by rw [fetched, left]⟩

end Sys2Proof.Machine
end

section
/-! The invariant along every instruction and every step (10_state.md R40), and the actuation of every tick (R32, R48). -/

namespace Sys2Proof.Machine

/-! The actuation with which a branch ends -/

theorem raiseFault_goodDrive (f : FaultName) {s : State} (h : s.GoodDrive) : (raiseFault f s).GoodDrive := { h with }

theorem revertMode_goodDrive (v : Byte) {s : State} (h : s.GoodDrive) : (revertMode v s).GoodDrive := { h with }

theorem publish_goodDrive {s : State} (h : s.GoodDrive) : (publish s).GoodDrive := { h with }

/-- Whatever the actuation was before it, phase 4 leaves it in its ranges and in agreement with OUT (R132). -/
theorem dispatch_goodDrive (m : Byte) (fresh : Bool) {s : State} (h : s.params.Valid) :
    (dispatch m fresh s).GoodDrive := by
  have limits := h.calPosOutLimit
  refine dispatch_ends safeOff_goodDrive (fun f _ => raiseFault_goodDrive f) (fun v _ => revertMode_goodDrive v) m fresh
    fun k u limit params => ?_
  rw [← params] at h limits limit
  exact runLoops_goodDrive h (by omega)

/-! The invariant -/

theorem dispatch_inv (m : Byte) (fresh : Bool) {s : State} (h : s.GoodBase) : (dispatch m fresh s).Inv :=
  (inv_iff _).mpr ⟨dispatch_goodBase m fresh h, dispatch_goodDrive m fresh h.params⟩

theorem tickStep_inv (inp : TickIn) {s : State} (h : s.GoodBase) : (tickStep inp s).Inv := by
  have before := exitChecks_goodBase s.cmd.mode (commandRead_goodBase inp h)
  exact (inv_iff _).mpr
    ⟨tickStep_goodBase inp h, publish_goodDrive (dispatch_goodDrive s.cmd.mode s.cmdFresh before.params)⟩

/-- The bus port writes nothing that the invariant speaks of but LAST_FAULT, with a code of R301. -/
theorem State.Inv.busPort {s : State} (h : s.Inv) (p c : MotionCommand) (fresh : Bool) (r : Option Byte) {code : Byte}
    (hcode : code.toNat ≤ 4) (count : Byte) :
    State.Inv
      { s with pend := p, cmd := c, cmdFresh := fresh, resp := r, lastFault := code, faultCount := count } :=
  { h with
    positions := { h.positions with }, cal := { h.cal with }, drive := { h.drive with }, lastFault := hcode }

theorem commit_inv {s : State} (h : s.Inv) : (commit s).Inv := by
  obtain ⟨-, replaced⟩ | ⟨-, dropped⟩ := commit_cases s
  · exact replaced ▸ h.busPort _ _ _ _ h.lastFault _
  · exact dropped ▸ h.busPort _ _ _ _ (faultCode_le .invalidCommand) _

/-- Settles O47: the bus rows keep the invariant field by field; a branch and a tick keep its ranges and end with a good
actuation. -/
theorem everyInstructionKeepsInvariant : Obligations.EveryInstructionKeepsInvariant := by
  unfold Obligations.EveryInstructionKeepsInvariant
  intro i s h
  obtain ⟨base, -⟩ := (inv_iff s).mp h
  obtain ⟨p, r, e⟩ | e | ⟨m, -, e⟩ | ⟨inp, -, e⟩ := exec_cases i s
  · exact ⟨_, e, h.busPort _ _ _ _ h.lastFault _⟩
  · exact ⟨_, e, commit_inv h⟩
  · exact ⟨_, e, dispatch_inv m _ base⟩
  · exact ⟨_, e, tickStep_inv inp base⟩

/-- What waits for the coming steps is no part of the invariant. -/
theorem State.Inv.waiting {s : State} (h : s.Inv) (held : List BusWord) (events : List Event) (draws : Nat) :
    State.Inv { s with held := held, events := events, draws := draws } :=
  { h with positions := { h.positions with }, cal := { h.cal with }, drive := { h.drive with } }

/-- Settles O46: a step executes one instruction, which keeps the invariant (O47). -/
theorem everyStepKeepsInvariant : Obligations.EveryStepKeepsInvariant := by
  unfold Obligations.EveryStepKeepsInvariant
  intro s t h stepped
  obtain ⟨i, held, events, draws, runs⟩ := step_cases s
  obtain ⟨u, executed, good⟩ := everyInstructionKeepsInvariant i _ (h.waiting held events draws)
  rw [runs, executed] at stepped
  injection stepped with same
  exact same ▸ good

/-- The state after reset is in all its ranges (R40, R340). -/
theorem resetWith_inv {p : Params} (h : p.Valid) : (State.resetWith p).Inv :=
  have pos : 0 < p.ppr := by
    have := h.ppr
    omega
  { params := h
    positions :=
      { abs := pos, prevRaw := pos, posSp := pos, lastKnown := pos, lastEnc := pos, startPos := pos, dist := pos
        ref := pos }
    cal :=
      { step := Nat.zero_le 5, running := nofun, scount := Nat.zero_le _, samples := List.length_replicate }
    ploop := zero_good h
    cloop := zero_good h
    drive := { curSp := by simp [State.resetWith], duty := Nat.zero_le _, off := fun _ => ⟨rfl, rfl⟩, act := rfl }
    lastCur := Nat.zero_le _
    lastFault := Nat.zero_le 4
    ramp := nofun }

theorem resetWith_goodGains (p : Params) : (State.resetWith p).GoodGains where
  idle := fun _ => ⟨rfl, rfl⟩
  running := nofun
  saved := nofun

/-- Settles O45: both hold at every valid record, and the implementation's record is valid. -/
theorem resetMeetsInvariants : Obligations.ResetMeetsInvariants := by
  unfold Obligations.ResetMeetsInvariants
  exact ⟨fun p h => ⟨resetWith_inv h, resetWith_goodGains p⟩, resetWith_inv Config.params_valid,
    resetWith_goodGains Config.params⟩

/-! The actuation of a tick -/

/-- OUT is disabled with DRIVE off, or drives in the direction of DRIVE with DUTY, at most DUTY_MAX (R32, R48). -/
def State.ActsOnce (s : State) : Prop :=
  s.duty.toNat ≤ s.params.dutyMax ∧
    ((s.out.act = .disable ∧ s.drive = .off ∧ s.duty = 0 ∧ s.curSp = 0) ∨
      (s.out.act = .drive .fwd s.duty .signMagnitude ∧ s.drive = .fwd) ∨
      (s.out.act = .drive .bwd s.duty .signMagnitude ∧ s.drive = .bwd))

theorem safeOff_actsOnce (s : State) : (safeOff s).ActsOnce := ⟨Nat.zero_le _, .inl ⟨rfl, rfl, rfl, rfl⟩⟩

theorem runLoops_actsOnce (k : Nat) {s : State} (h : s.params.dutyMax ≤ 65535) : (runLoops k s).ActsOnce := by
  have range := runCurrentLoop_range (runPositionLoop k s).2 s
  have duty := toNat_ofInt16 range.1 (by omega)
  refine ⟨?_, .inr ?_⟩
  · rw [runLoops_duty, runLoops_params]
    omega
  · rw [runLoops_out, runLoops_drive, runLoops_duty]
    cases driveDir (runPositionLoop k s).2
    · exact .inl ⟨rfl, rfl⟩
    · exact .inr ⟨rfl, rfl⟩

/-- Settles O22: every branch ends in SAFE_OFF or a run of the loops, and the publish keeps the actuation. -/
theorem everyTickActuatesOnce : Obligations.EveryTickActuatesOnce := by
  unfold Obligations.EveryTickActuatesOnce
  intro inp s h
  have before : (exitChecks s.cmd.mode (commandRead inp s)).params = s.params := (exitChecks_frame _ _).params
  have acts : (dispatch s.cmd.mode s.cmdFresh (exitChecks s.cmd.mode (commandRead inp s))).ActsOnce :=
    dispatch_ends safeOff_actsOnce (fun _ _ => id) (fun _ _ => id) _ _ fun k u _ params =>
      runLoops_actsOnce k (by rw [params, before]; exact h)
  have kept : (tickStep inp s).params = s.params := (tick_frame inp s).params
  exact ⟨tickStep inp s, exec_tick inp s, kept ▸ acts⟩

end Sys2Proof.Machine
end

section
/-! The gains and the calibration (10_state.md "Gains", 42_calibration.md): how an instruction moves them, said once as
`GainMove`, and what follows for the steps and for a double commit. -/

namespace Sys2Proof.Machine

/-- The active and the saved gain sets (R26, R27). -/
def gainSets (s : State) : (Gains × Gains) × (Gains × Gains) := ((s.gainsP, s.gainsC), (s.savedP, s.savedC))

/-- How the gains move with the calibration flag: both stay, a running calibration ends with the saved gains restored, or
one starts with the calibration gains loaded and the active ones saved (R163, R171, R172). -/
def GainMove (s t : State) : Prop :=
  (gainSets t = gainSets s ∧ t.cal.flag = s.cal.flag) ∨
  (gainSets t = ((s.savedP, s.savedC), (s.savedP, s.savedC)) ∧ s.cal.flag = true ∧ t.cal.flag = false) ∨
  (gainSets t = ((s.params.calGainsP, s.params.calGainsC), (s.gainsP, s.gainsC)) ∧
    s.cal.flag = false ∧ t.cal.flag = true)

theorem GainMove.congr {s u t : State} (h : GainMove s u) (gains : gainSets t = gainSets u)
    (flag : t.cal.flag = u.cal.flag) : GainMove s t := by
  unfold GainMove
  rwa [gains, flag]

/-- A calibration in progress is in one of the steps 1 to 5 (R31). -/
def State.StepInRange (s : State) : Prop := s.cal.flag = true → 1 ≤ s.cal.step.toNat ∧ s.cal.step.toNat ≤ 5

theorem not_running_of_stepInRange {s : State} (h : s.StepInRange)
    (enters : s.cal.flag = false ∨ s.cal.step.toNat = 0 ∨ 6 ≤ s.cal.step.toNat) : s.cal.flag = false := by
  by_contra running
  have := h (Bool.eq_true_of_not_eq_false running)
  rcases enters with idle | _ | _
  · exact running idle
  · omega
  · omega

theorem calBranch_gainMove {s : State} (h : s.StepInRange) : GainMove s (calBranch s) := by
  have outcome := calBranch_outcome s
  generalize calBranch s = t at outcome
  cases outcome with
  | enters notRunning => exact .inr (.inr ⟨rfl, not_running_of_stepInRange h notRunning, rfl⟩)
  | follows _ same => exact .inl ⟨rfl, same.flag⟩
  | stops _ _ same => exact .inl ⟨rfl, same.flag⟩
  | arrives => exact .inl ⟨rfl, rfl⟩
  | resetsDetector => exact .inl ⟨rfl, rfl⟩
  | finds => exact .inl ⟨rfl, rfl⟩
  | timesOut running => exact .inr (.inl ⟨rfl, running, rfl⟩)
  | exits running => exact .inr (.inl ⟨rfl, running, rfl⟩)

/-- A walk moves neither the gains nor the calibration (R200). -/
theorem walkBranch_calibration (fresh : Bool) (s : State) :
    gainSets (walkBranch fresh s) = gainSets s ∧ (walkBranch fresh s).cal = s.cal := by
  have segment (u : State) : gainSets (walkSegment u) = gainSets u ∧ (walkSegment u).cal = u.cal := by
    obtain ⟨-, h⟩ | ⟨-, h⟩ := walkSegment_cases u <;> rw [h] <;> exact ⟨rfl, rfl⟩
  obtain ⟨-, -, h⟩ | ⟨-, -, h⟩ | ⟨-, -, h⟩ := walkBranch_cases fresh s <;> rw [h]
  · exact ⟨rfl, rfl⟩
  · exact segment (profDerive s)
  · exact segment s

/-- Only Calibrate moves the gains or the calibration in phase 4 (R132, R135). -/
theorem dispatch_calibration {m : Byte} (hm : m ≠ 1) (fresh : Bool) (s : State) :
    gainSets (dispatch m fresh s) = gainSets s ∧ (dispatch m fresh s).cal = s.cal := by
  obtain ⟨-, h⟩ | ⟨calibrate, -⟩ | ⟨-, h⟩ | ⟨-, h⟩ | ⟨-, h⟩ := dispatch_cases m fresh s
  · exact h ▸ ⟨rfl, rfl⟩
  · exact absurd calibrate hm
  · exact h ▸ walkBranch_calibration fresh s
  · exact h ▸ ⟨rfl, rfl⟩
  · exact h ▸ ⟨rfl, rfl⟩

/-- A mode branch by itself moves the gains only with the calibration. -/
theorem dispatch_gainMove (m : Byte) (fresh : Bool) {s : State} (h : s.StepInRange) :
    GainMove s (dispatch m fresh s) := by
  by_cases hm : m = 1
  · exact hm ▸ calBranch_gainMove h
  · obtain ⟨gains, cal⟩ := dispatch_calibration hm fresh s
    exact .inl ⟨gains, congrArg Calibration.flag cal⟩

/-! The exit checks (R131) -/

/-- In a mode other than WalkForward the exit checks leave PROF inactive and otherwise as it is (R207). -/
theorem exitChecks_of_notWalk {m : Byte} (hm : m ≠ 3) (s : State) :
    exitChecks m s = { abortForeign m s with prof := { s.prof with active := false } } := by
  rw [exitChecks_eq]
  split
  case isTrue => rfl
  case isFalse h =>
    have inactive : s.prof.active = false := Bool.eq_false_iff.mpr fun active => h ⟨active, hm⟩
    rw [← inactive, ← abortForeign_prof m s]

theorem exitChecks_prof_of_notWalk {m : Byte} (hm : m ≠ 3) (s : State) :
    (exitChecks m s).prof = { s.prof with active := false } := by
  rw [exitChecks_of_notWalk hm]

theorem abortForeign_calibrate (s : State) : abortForeign 1 s = s := if_neg fun ⟨_, foreign⟩ => foreign rfl

theorem exitChecks_calibrate (s : State) : exitChecks 1 s = { s with prof := { s.prof with active := false } } := by
  rw [exitChecks_of_notWalk (by decide), abortForeign_calibrate]

/-- The exit checks move the gains and the calibration as the abort does: the discard leaves both (R131). -/
theorem exitChecks_calibration (m : Byte) (s : State) :
    gainSets (exitChecks m s) = gainSets (abortForeign m s) ∧ (exitChecks m s).cal = (abortForeign m s).cal := by
  rw [exitChecks_eq]
  split <;> exact ⟨rfl, rfl⟩

theorem exitChecks_gainMove (m : Byte) (s : State) : GainMove s (exitChecks m s) := by
  have abort : GainMove s (abortForeign m s) := by
    unfold abortForeign
    split
    case isTrue h => exact .inr (.inl ⟨rfl, h.1, rfl⟩)
    case isFalse => exact .inl ⟨rfl, rfl⟩
  obtain ⟨gains, cal⟩ := exitChecks_calibration m s
  exact abort.congr gains (congrArg Calibration.flag cal)

/-! The tick -/

/-- A tick in Calibrate runs the branch after the discard of a profile (R131, R132). -/
theorem tickStep_of_calibrate {s : State} (hm : s.cmd.mode = 1) (inp : TickIn) :
    tickStep inp s = publish (calBranch { commandRead inp s with prof := { s.prof with active := false } }) := by
  rw [tickStep_eq, hm, exitChecks_calibrate]
  rfl

/-- Outside Calibrate a tick moves the gains as its exit checks do. -/
theorem tickStep_gainMove_of_notCalibrate {s : State} (hm : s.cmd.mode ≠ 1) (inp : TickIn) :
    GainMove s (tickStep inp s) := by
  obtain ⟨gains, cal⟩ := dispatch_calibration hm s.cmdFresh (exitChecks s.cmd.mode (commandRead inp s))
  have moved : GainMove s (exitChecks s.cmd.mode (commandRead inp s)) := exitChecks_gainMove _ (commandRead inp s)
  rw [tickStep_eq]
  exact moved.congr gains (congrArg Calibration.flag cal)

theorem tickStep_gainMove (inp : TickIn) {s : State} (h : s.StepInRange) : GainMove s (tickStep inp s) := by
  by_cases hm : s.cmd.mode = 1
  · rw [tickStep_of_calibrate hm]
    exact calBranch_gainMove (s := { commandRead inp s with prof := { s.prof with active := false } }) h
  · exact tickStep_gainMove_of_notCalibrate hm inp

/-- A commit reaches neither the gains nor the calibration nor the parameters (R110). -/
theorem commit_keeps (s : State) :
    gainSets (commit s) = gainSets s ∧ (commit s).cal = s.cal ∧ (commit s).params = s.params := by
  obtain ⟨-, h⟩ | ⟨-, h⟩ := commit_cases s <;> rw [h] <;> exact ⟨rfl, rfl, rfl⟩

/-- Every instruction keeps the parameters and moves the gains only with the calibration. -/
theorem exec_gainMove (i : Instr) {s : State} (h : s.StepInRange) :
    ∃ t, exec i s = .next t ∧ t.params = s.params ∧ GainMove s t := by
  obtain ⟨p, r, e⟩ | e | ⟨m, -, e⟩ | ⟨inp, -, e⟩ := exec_cases i s
  · exact ⟨_, e, rfl, .inl ⟨rfl, rfl⟩⟩
  · obtain ⟨gains, cal, params⟩ := commit_keeps s
    exact ⟨_, e, params, .inl ⟨gains, congrArg Calibration.flag cal⟩⟩
  · exact ⟨_, e, (dispatch_frame m _ s).params, dispatch_gainMove m _ h⟩
  · exact ⟨_, e, (tick_frame inp s).params, tickStep_gainMove inp h⟩

/-- Outside Calibrate no calibration is in progress after a tick (R131). -/
theorem tickStep_cal_flag_of_notCalibrate {s : State} (hm : s.cmd.mode ≠ 1) (inp : TickIn) :
    (tickStep inp s).cal.flag = false := by
  obtain ⟨-, cal⟩ := dispatch_calibration hm s.cmdFresh (exitChecks s.cmd.mode (commandRead inp s))
  exact (congrArg Calibration.flag cal).trans (exitChecks_cal_flag hm _)

/-- Only the calibration branch starts a calibration (R161, R163). -/
theorem calibrates_of_started {i : Instr} {s t : State} (executed : exec i s = .next t) (idle : s.cal.flag = false)
    (started : t.cal.flag = true) : i = .modeCalibrate ∨ ∃ inp, i = .tick inp ∧ s.cmd.mode = 1 := by
  have kept (flag : t.cal.flag = false) : False := absurd (started.symm.trans flag) (by decide)
  obtain ⟨p, r, e⟩ | e | ⟨m, calibrate, e⟩ | ⟨inp, tick, e⟩ := exec_cases i s <;>
    obtain rfl : _ = t := Host.Outcome.next.inj (e.symm.trans executed)
  · exact (kept idle).elim
  · obtain ⟨-, cal, -⟩ := commit_keeps s
    exact (kept (by rw [cal, idle])).elim
  · by_cases hm : m = 1
    · exact .inl (calibrate hm)
    · obtain ⟨-, cal⟩ := dispatch_calibration hm s.tickFresh s
      exact (kept (by rw [cal, idle])).elim
  · by_cases hm : s.cmd.mode = 1
    · exact .inr ⟨inp, tick, hm⟩
    · exact (kept (tickStep_cal_flag_of_notCalibrate hm inp)).elim

theorem gainSets_eq_iff (t : State) (a b c d : Gains) :
    gainSets t = ((a, b), (c, d)) ↔ t.gainsP = a ∧ t.gainsC = b ∧ t.savedP = c ∧ t.savedC = d := by
  simp only [gainSets, Prod.mk.injEq, and_assoc]

/-- Settles O30: the three moves of `GainMove`, the last of which starts a calibration. -/
theorem gainsMoveOnlyWithCalibration : Obligations.GainsMoveOnlyWithCalibration := by
  unfold Obligations.GainsMoveOnlyWithCalibration
  intro i s inRange
  obtain ⟨t, executed, -, move⟩ := exec_gainMove i (s := s) inRange
  refine ⟨t, executed, ?_⟩
  obtain ⟨gains, -⟩ | ⟨gains, running, ended⟩ | ⟨gains, idle, started⟩ := move
  · exact .inl ((gainSets_eq_iff ..).mp gains)
  · obtain ⟨gP, gC, sP, sC⟩ := (gainSets_eq_iff ..).mp gains
    exact .inr (.inl ⟨gP, gC, sP, sC, running, ended⟩)
  · obtain ⟨gP, gC, sP, sC⟩ := (gainSets_eq_iff ..).mp gains
    exact .inr (.inr ⟨gP, gC, sP, sC, idle, started, calibrates_of_started executed idle started⟩)

/-- A move of the gains keeps the calibration gains active exactly while a calibration is in progress. -/
theorem GainMove.goodGains {s t : State} (h : s.GoodGains) (params : t.params = s.params) (move : GainMove s t) :
    t.GoodGains := by
  obtain ⟨gains, flag⟩ | ⟨gains, running, ended⟩ | ⟨gains, idle, started⟩ := move <;>
    obtain ⟨gP, gC, sP, sC⟩ := (gainSets_eq_iff ..).mp gains
  · constructor <;> rw [flag, params]
    · rw [gP, gC]
      exact h.idle
    · rw [gP, gC]
      exact h.running
    · rw [sP, sC]
      exact h.saved
  · constructor <;> rw [ended]
    · rw [gP, gC, params]
      exact fun _ => h.saved running
    · exact nofun
    · exact nofun
  · constructor <;> rw [started, params]
    · exact nofun
    · exact fun _ => ⟨gP, gC⟩
    · rw [sP, sC]
      exact fun _ => h.idle idle

/-- Settles O31: the invariant keeps the calibration step in its range, and then every instruction moves the gains with
the calibration flag. -/
theorem normalGainsOutsideCalibration : Obligations.NormalGainsOutsideCalibration := by
  unfold Obligations.NormalGainsOutsideCalibration
  intro s t h gains stepped
  obtain ⟨i, held, events, draws, runs⟩ := step_cases s
  have inRange : State.StepInRange { s with held := held, events := events, draws := draws } :=
    fun running => ⟨h.cal.running running, h.cal.step⟩
  obtain ⟨u, executed, params, move⟩ := exec_gainMove i inRange
  obtain rfl : u = t := Host.Outcome.next.inj (executed.symm.trans (runs.symm.trans stepped))
  exact move.goodGains { gains with } params

/-! The double commit (70_reset_and_hazards.md) -/

theorem GainMove.gainSets_of_ended {s t : State} (h : GainMove s t) (running : s.cal.flag = true)
    (ended : t.cal.flag = false) : gainSets t = ((s.savedP, s.savedC), (s.savedP, s.savedC)) := by
  obtain ⟨-, flag⟩ | ⟨gains, -⟩ | ⟨-, idle, -⟩ := h
  · exact absurd (flag.symm.trans ended) (by rw [running]; decide)
  · exact gains
  · exact absurd (running.symm.trans idle) (by decide)

theorem commit_pend (s : State) : (commit s).pend = .zero := by
  obtain ⟨-, h⟩ | ⟨-, h⟩ := commit_cases s <;> rw [h]

/-- A commit right after another commits the zeroed PEND, which is Idle and always allowed (R110). -/
theorem commit_commit_cmd (s : State) :
    (commit (commit s)).cmd = .zero ∧ (commit (commit s)).cmdFresh = true := by
  have allowed : commitSucceeds (commit s) = true := commitSucceeds_of_alwaysAllowed (by rw [commit_pend]; rfl)
  rw [commit_of_succeeds allowed, commit_pend]
  exact ⟨rfl, rfl⟩

/-- Settles O13: the second commit is Idle, whose tick switches off and ends every sub-sequence (O18); a calibration that
ends restores the saved gains. -/
theorem doubleCommitEndsMotion : Obligations.DoubleCommitEndsMotion := by
  unfold Obligations.DoubleCommitEndsMotion
  intro d d' inp s
  obtain ⟨cmd, -⟩ := commit_commit_cmd s
  have idle : (commit (commit s)).cmd.mode = 0 := by rw [cmd]; rfl
  obtain ⟨v, ticked, safe, -, cmd', -, -, -, -, prof, cal, -⟩ :=
    idleAndPanicStopSwitchOff.2 inp (commit (commit s)) (.inl idle)
  refine ⟨_, _, v, exec_wCommit d s, exec_wCommit d' _, ticked, cmd'.trans cmd, prof, cal, safe, fun running => ?_⟩
  obtain ⟨gains1, cal1, -⟩ := commit_keeps s
  obtain ⟨gains2, cal2, -⟩ := commit_keeps (commit s)
  have saved : gainSets (commit (commit s)) = gainSets s := gains2.trans gains1
  obtain ⟨-, -, savedP, savedC⟩ := (gainSets_eq_iff ..).mp saved
  obtain rfl : _ = v := Host.Outcome.next.inj ((exec_tick inp _).symm.trans ticked)
  have move := tickStep_gainMove_of_notCalibrate (by rw [idle]; decide) inp
  have restored := move.gainSets_of_ended (by rw [cal2, cal1]; exact running) cal
  rw [savedP, savedC] at restored
  obtain ⟨gP, gC, -⟩ := (gainSets_eq_iff ..).mp restored
  exact ⟨gP, gC⟩

end Sys2Proof.Machine
end

section
/-! The frame of a tick (10_state.md, 41_dispatcher.md): the mode, the profile, the setpoint and LAST_KNOWN through the
branches that do not own them -/

namespace Sys2Proof.Machine

/-- Phase 4 keeps the mode, or reverts it to Idle or to PanicStop (R137, R164). -/
theorem dispatch_mode (m : Byte) (fresh : Bool) (s : State) :
    (dispatch m fresh s).cmd.mode = s.cmd.mode ∨ (dispatch m fresh s).cmd.mode = 0 ∨
      (dispatch m fresh s).cmd.mode = 255 := by
  have calibrate : (calBranch s).cmd.mode = s.cmd.mode ∨ (calBranch s).cmd.mode = 0 ∨ (calBranch s).cmd.mode = 255 := by
    have outcome := calBranch_outcome s
    generalize calBranch s = t at outcome
    cases outcome with
    | timesOut => exact .inr (.inr rfl)
    | exits => exact .inr (.inl rfl)
    | _ => exact .inl rfl
  have segment (u : State) : (walkSegment u).cmd.mode = u.cmd.mode ∨ (walkSegment u).cmd.mode = 0 := by
    obtain ⟨-, h⟩ | ⟨-, h⟩ := walkSegment_cases u <;> rw [h]
    · exact .inr rfl
    · exact .inl rfl
  have walk : (walkBranch fresh s).cmd.mode = s.cmd.mode ∨ (walkBranch fresh s).cmd.mode = 0 := by
    obtain ⟨-, -, h⟩ | ⟨-, -, h⟩ | ⟨-, -, h⟩ := walkBranch_cases fresh s <;> rw [h]
    · exact .inr rfl
    · exact segment (profDerive s)
    · exact segment s
  obtain ⟨-, h⟩ | ⟨-, h⟩ | ⟨-, h⟩ | ⟨-, h⟩ | ⟨-, h⟩ := dispatch_cases m fresh s <;> rw [h]
  · exact .inl rfl
  · exact calibrate
  · exact walk.imp_right .inl
  · exact .inl rfl
  · exact .inr (.inl rfl)

/-- Only WalkForward writes PROF in phase 4 (R136). -/
theorem dispatch_prof {m : Byte} (hm : m ≠ 3) (fresh : Bool) (s : State) : (dispatch m fresh s).prof = s.prof := by
  have calibrate : (calBranch s).prof = s.prof := by
    have outcome := calBranch_outcome s
    generalize calBranch s = t at outcome
    cases outcome <;> rfl
  obtain ⟨-, h⟩ | ⟨-, h⟩ | ⟨walk, -⟩ | ⟨-, h⟩ | ⟨-, h⟩ := dispatch_cases m fresh s
  · exact h ▸ rfl
  · exact h ▸ calibrate
  · exact absurd walk hm
  · exact h ▸ rfl
  · exact h ▸ rfl

/-- The branches that only switch off keep LAST_KNOWN and POS_SP (R133). -/
theorem dispatch_positions {m : Byte} (hcal : m ≠ 1) (hwalk : m ≠ 3) (fresh : Bool) (s : State) :
    (dispatch m fresh s).lastKnown = s.lastKnown ∧ (dispatch m fresh s).posSp = s.posSp := by
  obtain ⟨-, h⟩ | ⟨calibrate, -⟩ | ⟨walk, -⟩ | ⟨-, h⟩ | ⟨-, h⟩ := dispatch_cases m fresh s
  · exact h ▸ ⟨rfl, rfl⟩
  · exact absurd calibrate hcal
  · exact absurd walk hwalk
  · exact h ▸ ⟨rfl, rfl⟩
  · exact h ▸ ⟨rfl, rfl⟩

/-- Without a calibration to abort, a tick outside Calibrate leaves CAL and the active gains alone. -/
theorem tickStep_calibration_of_idle {s : State} (hm : s.cmd.mode ≠ 1) (idle : s.cal.flag = false) (inp : TickIn) :
    gainSets (tickStep inp s) = gainSets s ∧ (tickStep inp s).cal = s.cal := by
  have nothing : abortForeign s.cmd.mode (commandRead inp s) = commandRead inp s :=
    if_neg fun ⟨running, _⟩ => absurd (idle.symm.trans running) (by decide)
  obtain ⟨gains, cal⟩ := exitChecks_calibration s.cmd.mode (commandRead inp s)
  obtain ⟨gains', cal'⟩ := dispatch_calibration hm s.cmdFresh (exitChecks s.cmd.mode (commandRead inp s))
  rw [nothing] at gains cal
  rw [tickStep_eq]
  exact ⟨gains'.trans gains, cal'.trans cal⟩

/-- Outside Calibrate a tick keeps the saved gains. -/
theorem tickStep_saved {s : State} (hm : s.cmd.mode ≠ 1) (inp : TickIn) :
    (tickStep inp s).savedP = s.savedP ∧ (tickStep inp s).savedC = s.savedC := by
  obtain ⟨gains, -⟩ | ⟨gains, -⟩ | ⟨-, -, started⟩ := tickStep_gainMove_of_notCalibrate hm inp
  · obtain ⟨-, -, saved⟩ := (gainSets_eq_iff ..).mp gains
    exact saved
  · obtain ⟨-, -, saved⟩ := (gainSets_eq_iff ..).mp gains
    exact saved
  · exact absurd (started.symm.trans (tickStep_cal_flag_of_notCalibrate hm inp)) (by decide)

/-- Settles O16: the frame of phases 3 and 4 from what phases 1 and 2 write, and what each mode's branch keeps. -/
theorem tickFrame : Obligations.TickFrame := by
  unfold Obligations.TickFrame
  intro inp s
  have frame := tick_frame inp s
  refine ⟨tickStep inp s, exec_tick inp s, ?_⟩
  rw [tickStep_eq]
  refine ⟨frame.pend, frame.cmd, ?mode, frame.cmdFresh, frame.resp, frame.held,
    frame.events, frame.draws, frame.params, frame.tickIn, frame.tickFresh, fun hwalk => ?prof,
    fun hcal idle => ?calibration, fun hcal => tickStep_eq inp s ▸ tickStep_saved hcal inp, fun hcal hwalk => ?positions⟩
  case mode =>
    have mode := dispatch_mode s.cmd.mode s.cmdFresh (exitChecks s.cmd.mode (commandRead inp s))
    rwa [exitChecks_cmd] at mode
  case prof =>
    exact (dispatch_prof hwalk s.cmdFresh _).trans (exitChecks_prof_of_notWalk hwalk (commandRead inp s))
  case calibration =>
    obtain ⟨gains, cal⟩ := tickStep_calibration_of_idle hcal idle inp
    obtain ⟨gP, gC, -⟩ := (gainSets_eq_iff ..).mp gains
    exact ⟨cal, gP, gC⟩
  case positions =>
    obtain ⟨lastKnown, posSp⟩ :=
      dispatch_positions hcal hwalk s.cmdFresh (exitChecks s.cmd.mode (commandRead inp s))
    have checked := exitChecks_keeps (field := (·.lastKnown)) calAbort_lastKnown profDiscard_lastKnown s.cmd.mode
      (commandRead inp s)
    exact ⟨lastKnown.trans checked, posSp.trans (exitChecks_posSp _ _)⟩

end Sys2Proof.Machine
end

section
/-! The faults of a step (60_exceptions.md R300, R301) -/

namespace Sys2Proof.Machine

/-- No fault is recorded, or exactly one. -/
def FaultMove (s t : State) : Prop :=
  (t.lastFault = s.lastFault ∧ t.faultCount = s.faultCount) ∨
  ∃ f, t.lastFault = faultCode f ∧ t.faultCount = bumpCount s.faultCount

theorem FaultMove.none {s t : State} (last : t.lastFault = s.lastFault) (count : t.faultCount = s.faultCount) :
    FaultMove s t := .inl ⟨last, count⟩

/-- The only fault of phase 4 is the one that its branch raises (R138, R164, R203). -/
theorem dispatch_faultMove (m : Byte) (fresh : Bool) (s : State) : FaultMove s (dispatch m fresh s) := by
  have calibrate : FaultMove s (calBranch s) := by
    have outcome := calBranch_outcome s
    generalize calBranch s = t at outcome
    cases outcome with
    | timesOut => exact .inr ⟨.sensorTimeout, rfl, rfl⟩
    | _ => exact .none rfl rfl
  have segment (u : State) : FaultMove u (walkSegment u) := by
    obtain ⟨-, h⟩ | ⟨-, h⟩ := walkSegment_cases u <;> rw [h] <;> exact .none rfl rfl
  have walk : FaultMove s (walkBranch fresh s) := by
    obtain ⟨-, -, h⟩ | ⟨-, -, h⟩ | ⟨-, -, h⟩ := walkBranch_cases fresh s <;> rw [h]
    · exact .inr ⟨.degenerateProfile, rfl, rfl⟩
    · exact segment (profDerive s)
    · exact segment s
  obtain ⟨-, h⟩ | ⟨-, h⟩ | ⟨-, h⟩ | ⟨-, h⟩ | ⟨-, h⟩ := dispatch_cases m fresh s <;> rw [h]
  · exact .none rfl rfl
  · exact calibrate
  · exact walk
  · exact .none rfl rfl
  · exact .inr ⟨.unrecognizedMode, rfl, rfl⟩

theorem commit_faultMove (s : State) : FaultMove s (commit s) := by
  obtain ⟨-, h⟩ | ⟨-, h⟩ := commit_cases s <;> rw [h]
  · exact .none rfl rfl
  · exact .inr ⟨.invalidCommand, rfl, rfl⟩

/-- The exit checks record no fault, so a tick records the one of its branch at most. -/
theorem tickStep_faultMove (inp : TickIn) (s : State) : FaultMove s (tickStep inp s) := by
  have move := dispatch_faultMove s.cmd.mode s.cmdFresh (exitChecks s.cmd.mode (commandRead inp s))
  unfold FaultMove at move
  rwa [exitChecks_lastFault, exitChecks_faultCount] at move

theorem exec_faultMove (i : Instr) (s : State) :
    ∃ t, exec i s = .next t ∧ t.params = s.params ∧ FaultMove s t := by
  obtain ⟨p, r, e⟩ | e | ⟨m, -, e⟩ | ⟨inp, -, e⟩ := exec_cases i s
  · exact ⟨_, e, rfl, .none rfl rfl⟩
  · obtain ⟨-, -, params⟩ := commit_keeps s
    exact ⟨_, e, params, commit_faultMove s⟩
  · exact ⟨_, e, (dispatch_frame m _ s).params, dispatch_faultMove m _ s⟩
  · exact ⟨_, e, (tick_frame inp s).params, tickStep_faultMove inp s⟩

theorem faultCode_mem (f : FaultName) :
    faultCode f = 1 ∨ faultCode f = 2 ∨ faultCode f = 3 ∨ faultCode f = 4 := by
  cases f <;> decide

/-- Settles O21: a step executes one instruction, which answers a next state and makes one `FaultMove`. -/
theorem everyStepGoesOnWithAtMostOneFault : Obligations.EveryStepGoesOnWithAtMostOneFault := by
  unfold Obligations.EveryStepGoesOnWithAtMostOneFault
  intro s
  obtain ⟨i, held, events, draws, runs⟩ := step_cases s
  obtain ⟨t, executed, params, move⟩ := exec_faultMove i { s with held := held, events := events, draws := draws }
  refine ⟨t, runs.trans executed, params, move.imp_right ?_⟩
  rintro ⟨f, code, count⟩
  exact ⟨by rw [count, bumpCount_toNat], code ▸ faultCode_mem f⟩

end Sys2Proof.Machine
end

section
/-! What the calibration branch cannot see (42_calibration.md). Two states run through it in lockstep under a relation that
agrees on everything its decisions read and that each of its straight-line acts keeps. -/

namespace Sys2Proof.Machine

/-- `f` leads related states to related states. -/
def Lockstep (R : State → State → Prop) (f : State → State) : Prop := ∀ ⦃s t⦄, R s t → R (f s) (f t)

section Lockstep

variable {R : State → State → Prop} {f g : State → State}

theorem Lockstep.id : Lockstep R (fun s => s) := fun _ _ h => h

theorem Lockstep.comp (hg : Lockstep R g) (hf : Lockstep R f) : Lockstep R (fun s => g (f s)) :=
  fun _ _ h => hg (hf h)

/-- A conditional on which related states agree. -/
theorem Lockstep.ite {b : State → Prop} {_ : DecidablePred b} (hb : ∀ ⦃s t⦄, R s t → b s = b t)
    (hf : Lockstep R f) (hg : Lockstep R g) : Lockstep R (fun s => if b s then f s else g s) := by
  intro s t h
  by_cases hs : b s
  · have ht : b t := hb h ▸ hs
    simpa only [if_pos hs, if_pos ht] using hf h
  · have ht : ¬b t := hb h ▸ hs
    simpa only [if_neg hs, if_neg ht] using hg h

end Lockstep

/-! The calibration branch -/

/-- Everything that the decisions of the calibration branch read (R161, R162, R164, R166, R168, R170). -/
structure CalDecisions where
  flag : Bool
  step : Byte
  overThreshold : Prop
  dbActive : Prop
  debounceDone : Prop
  timedOut : Prop
  gateFires : Prop
  atTarget : Prop
  hallDet : Prop
  room : Prop

def calDecisions (s : State) : CalDecisions where
  flag := s.cal.flag
  step := s.cal.step
  overThreshold := overThreshold s = true
  dbActive := s.cal.dbActive = true
  debounceDone := debounceDone s = true
  timedOut := calTimedOut s = true
  gateFires := gateFires s = true
  atTarget := s.posSp = sweepTarget s
  hallDet := s.tickIn.hallDet = true
  room := s.cal.scount.toNat < s.params.sampleN

/-- The relation `R` is invisible to the calibration branch: related states take the same decisions, and every act that
has no decision in it runs in lockstep. -/
structure CalBlind (R : State → State → Prop) : Prop where
  decisions : ∀ ⦃s t⦄, R s t → calDecisions s = calDecisions t
  openWindow : Lockstep R fun s => { s with cal := { s.cal with dbActive := true, dbStart := s.tickIn.now } }
  dropWindow : Lockstep R fun s => { s with cal := { s.cal with dbActive := false } }
  stop : Lockstep R hardStop
  timeOut : Lockstep R calTimeout
  loops : Lockstep R fun s => runLoops s.params.calPosOutLimit s
  down : Lockstep R fun s => pulseDown (gateMark s)
  up : Lockstep R fun s => pulseUp (gateMark s)
  sample : Lockstep R fun s =>
    { s with
      cal :=
        { s.cal with
          samples := s.cal.samples.set s.cal.scount.toNat s.tickIn.hallAdc
          scount := BitVec.ofNat 8 (s.cal.scount.toNat + 1) } }
  arrive : Lockstep R fun s => { s with cal := { s.cal with step := 3, stepStart := s.tickIn.now } }
  resetDetector : Lockstep R calResetDetector
  find : Lockstep R edgeFound
  exit : Lockstep R calExit
  enter : Lockstep R calEnter

namespace CalBlind

variable {R : State → State → Prop} (blind : CalBlind R)

include blind

theorem debounceMark : Lockstep R debounceMark :=
  .ite (fun _ _ h => congrArg CalDecisions.overThreshold (blind.decisions h))
    (.ite (fun _ _ h => congrArg CalDecisions.dbActive (blind.decisions h)) .id blind.openWindow) blind.dropWindow

theorem rampDown : Lockstep R rampDown :=
  .ite (fun _ _ h => congrArg CalDecisions.gateFires (blind.decisions h)) blind.down .id

/-- The descent, then the loops: the limit is that of the state before, whose parameters the ramp keeps. -/
theorem descent : Lockstep R fun s => runLoops s.params.calPosOutLimit (Machine.rampDown s) := by
  have params (s : State) : (Machine.rampDown s).params = s.params := (rampDown_frame s).params
  simpa only [params] using blind.loops.comp blind.rampDown

theorem calProbe : Lockstep R calProbe := by
  have outcome : Lockstep R fun d =>
      if debounceDone d then hardStop d
      else if calTimedOut d then calTimeout d
      else runLoops d.params.calPosOutLimit (Machine.rampDown d) :=
    .ite (fun _ _ h => congrArg CalDecisions.debounceDone (blind.decisions h)) blind.stop
      (.ite (fun _ _ h => congrArg CalDecisions.timedOut (blind.decisions h)) blind.timeOut blind.descent)
  exact outcome.comp blind.debounceMark

theorem calSearch : Lockstep R calSearch :=
  .ite (fun _ _ h => congrArg CalDecisions.hallDet (blind.decisions h)) blind.find
    (.ite (fun _ _ h => congrArg CalDecisions.timedOut (blind.decisions h)) blind.timeOut blind.descent)

theorem takeSample : Lockstep R takeSample :=
  .ite (fun _ _ h => congrArg CalDecisions.room (blind.decisions h)) blind.sample .id

theorem sweepMove : Lockstep R sweepMove :=
  .ite (fun _ _ h => congrArg CalDecisions.atTarget (blind.decisions h)) blind.arrive
    (.ite (fun _ _ h => congrArg CalDecisions.gateFires (blind.decisions h)) (blind.takeSample.comp blind.up) .id)

theorem calSweep : Lockstep R calSweep := by
  have params (s : State) : (Machine.sweepMove s).params = s.params := (sweepMove_frame s).params
  have swept := blind.loops.comp blind.sweepMove
  simp only [params] at swept
  exact swept

/-- CAL.flag and CAL.step select the step, and each step runs in lockstep (R161). -/
theorem calBranch : Lockstep R calBranch := by
  intro s t h
  have flag := congrArg CalDecisions.flag (blind.decisions h)
  have step := congrArg CalDecisions.step (blind.decisions h)
  dsimp only [calDecisions] at flag step
  unfold Machine.calBranch
  rw [flag, step]
  split
  · split
    · exact blind.calProbe h
    · exact blind.calSweep h
    · exact blind.resetDetector h
    · exact blind.calSearch h
    · exact blind.exit h
    · exact blind.enter h
  · exact blind.enter h

end CalBlind

end Sys2Proof.Machine
end

section
/-! The recommit of mode 1 (70_reset_and_hazards.md): the calibration branch is blind to the command but for its mode. -/

namespace Sys2Proof.Machine

/-- `s` with PEND, the sampled freshness and CMD replaced, but for CMD's mode. -/
def writeCommand (c p : MotionCommand) (f : Bool) (s : State) : State :=
  { s with pend := p, tickFresh := f, cmd := { c with mode := s.cmd.mode } }

/-- Of the command the calibration branch reads nothing, and writes only the mode (R135, R137). -/
theorem calBlind_writeCommand (c p : MotionCommand) (f : Bool) : CalBlind fun s t => t = writeCommand c p f s := by
  constructor
  all_goals
    rintro s _ rfl
    rfl

theorem calBranch_writeCommand (c p : MotionCommand) (f : Bool) (s : State) :
    calBranch (writeCommand c p f s) = writeCommand c p f (calBranch s) :=
  (calBlind_writeCommand c p f).calBranch rfl

/-- In mode 1 a tick passes another command with that mode on, and publishes it. -/
theorem tickStep_writeCommand {s : State} (hm : s.cmd.mode = 1) {c : MotionCommand} (hc : c.mode = 1)
    (p : MotionCommand) (f : Bool) (inp : TickIn) :
    tickStep inp { s with cmd := c, cmdFresh := f, pend := p } =
      publish (writeCommand c p f (tickStep inp s)) := by
  have sameMode : { c with mode := s.cmd.mode } = c := by rw [hm, ← hc]
  have read : { commandRead inp { s with cmd := c, cmdFresh := f, pend := p } with
        prof := { s.prof with active := false } } =
      writeCommand c p f { commandRead inp s with prof := { s.prof with active := false } } := by
    simp only [writeCommand, commandRead_eq, sameMode]
  rw [tickStep_of_calibrate hm, tickStep_of_calibrate (s := { s with cmd := c, cmdFresh := f, pend := p }) hc, read,
    calBranch_writeCommand]
  rfl

/-- A running calibration ends, stays in its step, or goes on to the next one; it never enters again (R161). -/
theorem calBranch_progress {s : State} (running : s.cal.flag = true) (low : 1 ≤ s.cal.step.toNat)
    (high : s.cal.step.toNat ≤ 5) :
    ((calBranch s).savedP = s.savedP ∧ (calBranch s).savedC = s.savedC) ∧
      ((calBranch s).cal.flag = false ∨
        ((calBranch s).cal.flag = true ∧ (calBranch s).cal.step = s.cal.step ∧
          (calBranch s).cal.stepStart = s.cal.stepStart) ∨
        ((calBranch s).cal.flag = true ∧ (calBranch s).cal.step.toNat = s.cal.step.toNat + 1)) := by
  have outcome := calBranch_outcome s
  generalize calBranch s = t at outcome
  cases outcome with
  | enters notRunning =>
    have idle := not_running_of_stepInRange (fun _ => ⟨low, high⟩) notRunning
    exact absurd (running.symm.trans idle) (by decide)
  | follows _ same => exact ⟨⟨rfl, rfl⟩, .inr (.inl ⟨same.flag.trans running, same.step, same.stepStart⟩)⟩
  | stops _ step same => exact ⟨⟨rfl, rfl⟩, .inr (.inr ⟨same.flag.trans running, by rw [step]; rfl⟩)⟩
  | arrives _ step => exact ⟨⟨rfl, rfl⟩, .inr (.inr ⟨running, by rw [step]; rfl⟩)⟩
  | resetsDetector _ step => exact ⟨⟨rfl, rfl⟩, .inr (.inr ⟨running, by rw [step]; rfl⟩)⟩
  | finds _ step => exact ⟨⟨rfl, rfl⟩, .inr (.inr ⟨running, by rw [step]; rfl⟩)⟩
  | timesOut => exact ⟨⟨rfl, rfl⟩, .inl rfl⟩
  | exits => exact ⟨⟨rfl, rfl⟩, .inl rfl⟩

/-- Settles O29: the tick in mode 1 is the calibration branch, which passes any other command of that mode on; a commit is
one such change of the command. -/
theorem recommitDoesNotRestartCalibration : Obligations.RecommitDoesNotRestartCalibration := by
  unfold Obligations.RecommitDoesNotRestartCalibration
  intro inp s hm
  refine ⟨tickStep inp s, exec_tick inp s, fun c p f hc => ?blind, fun d hp => ?commit,
    fun running low high => ?progress⟩
  case blind => exact congrArg _ (tickStep_writeCommand hm hc p f inp)
  case commit =>
    have allowed : commitSucceeds s = true := commitSucceeds_of_alwaysAllowed (by rw [hp]; rfl)
    refine ⟨commit s, exec_wCommit d s, ?_⟩
    rw [commit_of_succeeds allowed]
    exact congrArg _ (tickStep_writeCommand hm hp .zero true inp)
  case progress =>
    rw [tickStep_of_calibrate hm]
    obtain ⟨⟨savedP, savedC⟩, moved⟩ := calBranch_progress
      (s := { commandRead inp s with prof := { s.prof with active := false } }) running low high
    exact ⟨savedP, savedC, moved⟩

end Sys2Proof.Machine
end

section
/-! The hall samples (42_calibration.md R168, 93_implementation_defined.md row 18): two states that differ only in the
sample buffer and in IN.hall_adc run through a whole tick in lockstep. -/

namespace Sys2Proof.Machine

/-- `s` with another sample buffer and another reading of the hall ADC. -/
def writeSamples (adc : Half) (l : List Half) (s : State) : State :=
  { s with tickIn := { s.tickIn with hallAdc := adc }, cal := { s.cal with samples := l } }

/-- `t` is `s` but for the sample buffer, and reads `adc` from the hall ADC. -/
def SameButSamples (adc : Half) (s t : State) : Prop := ∃ l, t = writeSamples adc l s

section Samples

variable (adc : Half)

/-- No decision of the calibration branch reads a sample, and each act stores, clears or keeps them. -/
theorem calBlind_sameButSamples : CalBlind (SameButSamples adc) := by
  constructor
  case decisions =>
    rintro s _ ⟨l, rfl⟩
    rfl
  all_goals
    rintro s _ ⟨l, rfl⟩
    exact ⟨_, rfl⟩

/-- An act that keeps the samples as they are. -/
theorem lockstep_of_keepsSamples {f : State → State}
    (keeps : ∀ l s, f (writeSamples adc l s) = writeSamples adc l (f s)) : Lockstep (SameButSamples adc) f := by
  rintro s _ ⟨l, rfl⟩
  exact ⟨l, keeps l s⟩

/-- A walk reads CAL nowhere (R200). -/
theorem lockstep_walkBranch (fresh : Bool) : Lockstep (SameButSamples adc) (walkBranch fresh) := by
  have agree {α : Type} {g : State → α} (h : ∀ l s, g s = g (writeSamples adc l s)) :
      ∀ ⦃s t⦄, SameButSamples adc s t → g s = g t := by
    rintro s _ ⟨l, rfl⟩
    exact h l s
  have segment : Lockstep (SameButSamples adc) walkSegment :=
    .ite (agree fun _ _ => rfl) (lockstep_of_keepsSamples adc fun _ _ => rfl)
      (lockstep_of_keepsSamples adc fun _ _ => rfl)
  have derive : Lockstep (SameButSamples adc) profDerive := lockstep_of_keepsSamples adc fun _ _ => rfl
  exact .ite (agree fun _ _ => rfl)
    (.ite (agree fun _ _ => rfl) (lockstep_of_keepsSamples adc fun _ _ => rfl) (segment.comp derive)) segment

theorem lockstep_dispatch (m : Byte) (fresh : Bool) : Lockstep (SameButSamples adc) (dispatch m fresh) := by
  have off : Lockstep (SameButSamples adc) safeOff := lockstep_of_keepsSamples adc fun _ _ => rfl
  intro s t h
  unfold dispatch
  split
  · exact off h
  · exact (calBlind_sameButSamples adc).calBranch h
  · exact lockstep_walkBranch adc fresh h
  · exact off h
  · exact lockstep_of_keepsSamples adc (f := modeUnrecognized) (fun _ _ => rfl) h

/-- The abort clears the samples, whatever they were (R172). -/
theorem lockstep_exitChecks (m : Byte) : Lockstep (SameButSamples adc) (exitChecks m) := by
  have abort : Lockstep (SameButSamples adc) fun s => if s.cal.flag && m != 1 then calAbort s else s := by
    refine .ite ?_ ?_ .id
    · rintro s _ ⟨l, rfl⟩
      rfl
    · rintro s _ ⟨l, rfl⟩
      exact ⟨_, rfl⟩
  have discard : Lockstep (SameButSamples adc) fun a => if a.prof.active && m != 3 then profDiscard a else a := by
    refine .ite ?_ (lockstep_of_keepsSamples adc fun _ _ => rfl) .id
    rintro s _ ⟨l, rfl⟩
    rfl
  exact discard.comp abort

end Samples

/-- Settles O32: phases 1 and 2 give states that differ only in the samples, phases 3 and 4 keep them so, and the image
that the publish takes holds no sample. -/
theorem samplesNeverSteer : Obligations.SamplesNeverSteer := by
  unfold Obligations.SamplesNeverSteer
  intro inp adc l s
  have read : SameButSamples adc (commandRead inp s)
      (commandRead { inp with hallAdc := adc } { s with cal := { s.cal with samples := l } }) := ⟨l, rfl⟩
  obtain ⟨l', branch⟩ :=
    lockstep_dispatch adc s.cmd.mode s.cmdFresh (lockstep_exitChecks adc s.cmd.mode read)
  have input : (tickStep inp s).tickIn = inp := (tick_frame inp s).tickIn
  refine ⟨tickStep inp s, l', exec_tick inp s, ?_⟩
  calc exec (.tick { inp with hallAdc := adc }) { s with cal := { s.cal with samples := l } }
    _ = .next (publish (writeSamples adc l'
          (dispatch s.cmd.mode s.cmdFresh (exitChecks s.cmd.mode (commandRead inp s))))) := by
        rw [← branch]
        rfl
    _ = .next (writeSamples adc l' (tickStep inp s)) := rfl
    _ = _ := by rw [writeSamples, input]

end Sys2Proof.Machine
end

section
/-! Where a step takes its input from (00_scope.md R7; 60_exceptions.md R311): the held transactions, the placed events,
the free draw, and the model's own placing of one instruction. -/

namespace Sys2Proof.Machine

/-! The sources of a step -/

section Sources

variable {s : State}

theorem step_of_held {w : BusWord} {ws : List BusWord} (held : s.held = w :: ws) :
    step s = exec (decode (.bus w)) { s with held := ws } := by
  rw [step, fetch, held]

theorem step_of_busEvent {w : BusWord} {es : List Event} (held : s.held = []) (placed : s.events = .bus w :: es) :
    step s = exec (decode (.bus w)) { s with events := es } := by
  rw [step, fetch, held, placed]
  rfl

/-- A tick puts the transactions that arrive during it on hold, and none is held when it is taken (R311). -/
theorem step_of_tickEvent {inp : TickIn} {ws : List BusWord} {es : List Event} (held : s.held = [])
    (placed : s.events = .tick inp ws :: es) :
    step s = exec (.tick inp) { s with events := es, held := ws } := by
  have fetched : fetch s = takeEvent (.tick inp ws) { s with events := es } := by rw [fetch, held, placed]
  have onHold : s.held ++ ws = ws := by rw [held, List.nil_append]
  calc step s = exec (.tick inp) { s with events := es, held := s.held ++ ws } := by rw [step, fetched]; rfl
    _ = _ := by rw [onHold]

/-- A free draw is taken as an event placed for this step would be. -/
theorem step_of_draw (held : s.held = []) (placed : s.events = []) :
    step s = step { s with events := [Config.event s.draws], draws := s.draws + 1 } := by
  rw [step, step, fetch, fetch, held, placed]

end Sources

/-- Settles O48: one lemma for each source. -/
theorem stepRunsTheDecodedInstruction : Obligations.StepRunsTheDecodedInstruction := by
  unfold Obligations.StepRunsTheDecodedInstruction
  exact ⟨fun _ _ _ => step_of_held, fun _ _ _ => step_of_busEvent, fun _ _ _ _ => step_of_tickEvent,
    fun _ => step_of_draw⟩

/-! Placing one instruction (log 10, log 11) -/

theorem codeOfTable_bus {w : Nat} (h : w < 2 ^ 25) : codeOfTable 32 w = .ok (.bus (BitVec.ofNat 25 w)) :=
  if_pos h

theorem codeOfTable_mode {b : Nat} (h : b < 2 ^ 8) : codeOfTable 8 b = .ok (.mode (BitVec.ofNat 8 b)) :=
  if_pos h

/-- Settles O50: a placed BUS word is the first held transaction, a placed mode byte is found by the first placed tick. -/
theorem placedWordRunsNext : Obligations.PlacedWordRunsNext := by
  unfold Obligations.PlacedWordRunsNext
  refine ⟨fun s w h => ?bus, fun s b h => ?mode⟩
  case bus =>
    rw [State.withFetchWord, placeTableWord, codeOfTable_bus h]
    exact step_of_held rfl
  case mode =>
    rw [State.withFetchWord, placeTableWord, codeOfTable_mode h]
    exact step_of_tickEvent rfl rfl

/-! The transactions held during a tick -/

open Sys2Proof.Claims

theorem setHeld_self {s : State} {ws : List BusWord} (held : s.held = ws) : { s with held := ws } = s := by
  rw [← held]

/-- The held transactions run one each step, in order, and each does what it would do with nothing held (R68, R311). -/
theorem steps_run_held (ws : List BusWord) (t : State) (held : t.held = ws) (k : Nat) (hk : k ≤ ws.length) :
    ∃ u, execAll ((ws.take k).map fun w => decode (.bus w)) { t with held := [] } u ∧ u.held = [] ∧
      u.events = t.events ∧ steps k t { u with held := ws.drop k } := by
  induction k generalizing ws t with
  | zero => exact ⟨{ t with held := [] }, rfl, rfl, rfl, (setHeld_self held).symm⟩
  | succ k ih =>
    cases ws with
    | nil => exact absurd hk (Nat.not_succ_le_zero k)
    | cons w ws =>
      obtain ⟨v, executed, nothingHeld, events, unread⟩ := bus_exec w { t with held := [] }
      have emptied : { v with held := [] } = v := setHeld_self nothingHeld
      obtain ⟨u, executesRest, uHeld, uEvents, stepsRest⟩ :=
        ih ws { v with held := ws } rfl (Nat.le_of_succ_le_succ hk)
      refine ⟨u, ⟨v, executed, ?_⟩, uHeld, uEvents.trans events, ⟨{ v with held := ws }, ?_, stepsRest⟩⟩
      · exact emptied ▸ executesRest
      · exact (step_of_held held).trans (unread ws)

/-- Settles O49: the tick leaves the held transactions as they are (O16), and then they run one each step. -/
theorem heldTransactionsRunAfterTheTick : Obligations.HeldTransactionsRunAfterTheTick := by
  unfold Obligations.HeldTransactionsRunAfterTheTick
  intro s inp ws es held placed
  have frame := tick_frame inp { s with events := es, held := ws }
  have kept : (tickStep inp { s with events := es, held := ws }).held = ws := frame.held
  refine ⟨_, step_of_tickEvent held placed, exec_tick inp _, kept, frame.events, fun k hk => ?_⟩
  obtain ⟨u, executes, uHeld, uEvents, runs⟩ := steps_run_held ws _ kept k hk
  exact ⟨u, executes, uHeld, uEvents.trans frame.events, runs⟩

end Sys2Proof.Machine
end

section
/-! Repeated transactions (20_memory.md "Atomicity and side effects") and the register map at reset (30_encoding.md R84). -/

namespace Sys2Proof.Machine

/-- Settles O12: a field write is one record update of PEND, a read does not touch SNAP, and a commit zeroes PEND, whose
mode Idle the next commit always allows. -/
theorem repeatedTransactions : Obligations.RepeatedTransactions := by
  unfold Obligations.RepeatedTransactions
  refine ⟨fun d d' s => ?writes, fun a d d' s => ⟨_, exec_r a d s, exec_r a d' _⟩, fun d d' s => ?commits⟩
  case writes =>
    simp only [List.forall_mem_cons]
    exact ⟨⟨_, _, rfl, rfl, rfl, rfl⟩, ⟨_, _, rfl, rfl, rfl, rfl⟩, ⟨_, _, rfl, rfl, rfl, rfl⟩,
      ⟨_, _, rfl, rfl, rfl, rfl⟩, ⟨_, _, rfl, rfl, rfl, rfl⟩, ⟨_, _, rfl, rfl, rfl, rfl⟩,
      ⟨_, _, rfl, rfl, rfl, rfl⟩, by simp⟩
  case commits =>
    obtain ⟨cmd, fresh⟩ := commit_commit_cmd s
    exact ⟨commit s, commit (commit s), exec_wCommit d s, exec_wCommit d' _, cmd, fresh⟩

/-! The map at reset -/

/-- The six 16-bit gain rows of R84, for the normal gains of `p`. -/
def normalGainRows (p : Params) : List (Nat × Byte) :=
  Claims.halfRows 0x30 p.normGainsP.kp.toNat ++ Claims.halfRows 0x32 p.normGainsP.ki.toNat ++
    Claims.halfRows 0x34 p.normGainsP.kd.toNat ++ Claims.halfRows 0x36 p.normGainsC.kp.toNat ++
    Claims.halfRows 0x38 p.normGainsC.ki.toNat ++ Claims.halfRows 0x3A p.normGainsC.kd.toNat

/-- At reset the gain rows of the map are those of the normal gains. -/
theorem normalGainRows_subset (p : Params) :
    normalGainRows p ⊆ Claims.registerRows (State.resetWith p).snap := by
  intro row
  simp only [normalGainRows, Claims.registerRows, List.mem_append, or_assoc]
  exact fun gain => .inr (.inr (.inr (.inr (.inr (.inr (.inr (.inr gain)))))))

/-- At reset every byte of SNAP outside the gains is 0x00. -/
theorem readByte_reset_of_notGain (p : Params) {a : Addr} (h : a.toNat < 0x30 ∨ 0x3B < a.toNat) :
    readByte (State.resetWith p).snap a = 0x00 := by
  have high : hiByte 0 = 0x00 := by decide
  unfold readByte
  split
  any_goals rfl
  any_goals exact high
  all_goals omega -- the gain rows contradict `h`

/-- At reset an address of a gain row reads the row's byte, and every other address 0x00. -/
theorem readByte_reset (p : Params) (a : Addr) :
    readByte (State.resetWith p).snap a = ((normalGainRows p).lookup a.toNat).getD 0x00 := by
  cases found : (normalGainRows p).lookup a.toNat with
  | some b =>
    obtain ⟨before, after, rows, -⟩ := List.lookup_eq_some_iff.mp found
    have row : (a.toNat, b) ∈ normalGainRows p := rows ▸ List.mem_append_right _ List.mem_cons_self
    have reads := readByte_registerRows _ _ (normalGainRows_subset p row)
    rwa [BitVec.ofNat_toNat, BitVec.setWidth_eq] at reads
  | none =>
    have absent := List.lookup_eq_none_iff.mp found
    simp only [normalGainRows, Claims.halfRows, List.forall_mem_append, List.forall_mem_cons,
      bne_iff_ne] at absent
    exact readByte_reset_of_notGain p (by omega)

/-- Settles O11: a read views the SNAP of the reset state. -/
theorem registerMapAtReset : Obligations.RegisterMapAtReset := by
  unfold Obligations.RegisterMapAtReset
  intro p a d
  rw [exec_r, readByte_reset]
  rfl

end Sys2Proof.Machine
end

section
/-! The derivation of a walk's profile (43_profile.md R201) and its distance over time (43_profile.md Properties (a), (c)
and (d)). -/

namespace Sys2Proof.Machine

/-! The derivation (R200, R201) -/

/-- Nothing has been covered at the start, whatever the ramp (Property (a)). -/
theorem profileS_zero (D T : Int) {A : Int} (hA : 0 ≤ A) (hT : A ≤ T) : profileS D T A 0 = 0 := by
  unfold profileS fdiv
  split
  case isTrue => simp
  case isFalse ramp =>
    obtain rfl : A = 0 := by omega
    rw [if_pos (by omega)]
    simp

theorem degenerate_eq_false {s : State} (long : 2 * s.params.tAd < 256 * s.cmd.timeA.toNat + s.cmd.timeB.toNat) :
    degenerate s = false :=
  Bool.eq_false_iff.mpr fun short => Nat.not_le.mpr long ((degenerate_iff s).mp short)

theorem position_natCast (p : Params) (n : Nat) : position p n = BitVec.ofNat 16 (n % p.ppr) := by
  rw [position, ← Int.natCast_mod, BitVec.ofInt_natCast]

/-- In the tick that derives a profile the setpoint is its start: no time has elapsed (R201, R204). -/
theorem profileSetpoint_profDerive {s : State} (h : degenerate s = false) :
    profileSetpoint (profDerive s) = BitVec.ofNat 16 (s.trk.abs.toNat % s.params.ppr) := by
  have long : 2 * s.params.tAd < (time16 s.cmd).toNat := Nat.not_le.mp (of_decide_eq_false h)
  have ramp : (BitVec.ofNat 16 s.params.tAd).toNat ≤ s.params.tAd := by
    rw [BitVec.toNat_ofNat]
    exact Nat.mod_le _ _
  have start : profileDistance (derivedProfile s) 0 = 0 := by
    refine profileS_zero _ _ (Int.natCast_nonneg _) ?_
    show ((BitVec.ofNat 16 s.params.tAd).toNat : Int) ≤ (time16 s.cmd).toNat
    omega
  have now : segmentTime (profDerive s) = 0 := by
    show (s.tickIn.now - s.tickIn.now).toNat = 0
    rw [BitVec.sub_self]
    rfl
  show position s.params ((s.trk.abs.toNat : Int) + profileDistance (derivedProfile s) _) = _
  rw [now, start, add_zero, position_natCast]

/-- PROF_DERIVE, its record written out with the operands of the command (R83, R201, R202). -/
theorem derivedProfile_eq (s : State) :
    derivedProfile s =
      { active := true
        startPos := s.trk.abs
        startTime := s.tickIn.now
        dist := BitVec.ofInt 16
          ((((256 * s.cmd.targetA.toNat + s.cmd.targetB.toNat) % s.params.ppr : Nat) - (s.trk.abs.toNat : Int))
            % (s.params.ppr : Int))
        dur := BitVec.ofNat 16 (256 * s.cmd.timeA.toNat + s.cmd.timeB.toNat)
        tad := BitVec.ofNat 16 s.params.tAd } := by
  rw [← target16_toNat, ← time16_toNat, BitVec.ofNat_toNat, BitVec.setWidth_eq]
  rfl

/-- Settles O34: the branch derives a profile that lasts longer than no time at all, so it follows it from its start. -/
theorem walkDerivesProfile : Obligations.WalkDerivesProfile := by
  unfold Obligations.WalkDerivesProfile
  intro s derives long
  have accepted := degenerate_eq_false long
  have follows : segmentTime (profDerive s) < (profDerive s).prof.dur.toNat := by
    show (s.tickIn.now - s.tickIn.now).toNat < (time16 s.cmd).toNat
    rw [BitVec.sub_self, time16_toNat]
    exact Nat.zero_lt_of_lt long
  rw [exec_modeWalkForward, walkBranch_of_derives derives, if_neg (by rw [accepted]; decide),
    walkSegment_of_running follows, profileSetpoint_profDerive accepted, ← derivedProfile_eq]
  rfl

/-! The distance over time (43_profile.md "Properties") -/

/-- The three phases of R205 over the common denominator 2 * A * (T - A), per unit of distance. -/
def trapezoid (T A t : Int) : Int :=
  if t < A then t * t
  else if t ≤ T - A then A * (2 * t - A)
  else 2 * A * (T - A) - (T - t) * (T - t)

section Distance

variable {D T A t u : Int}

theorem profileS_eq_trapezoid (hA : 0 < A) : profileS D T A t = fdiv (D * trapezoid T A t) (2 * A * (T - A)) := by
  unfold profileS trapezoid
  split_ifs
  · rw [mul_assoc]
  · rw [fdiv, fdiv, ← Int.mul_ediv_mul_of_pos (D * (2 * t - A)) (2 * (T - A)) hA]
    congr 1 <;> ring
  · rfl

/-- The covered distance never decreases, within a phase and from one to the next (Property (d)). -/
theorem trapezoid_mono (hA : 0 ≤ A) (hT : 2 * A < T) (h0 : 0 ≤ t) (htu : t ≤ u) (hu : u ≤ T) :
    trapezoid T A t ≤ trapezoid T A u := by
  have cruise : A * t ≤ A * u := mul_le_mul_of_nonneg_left htu hA
  unfold trapezoid
  split_ifs <;> nlinarith

theorem trapezoid_end (hA : 0 ≤ A) (hT : 2 * A < T) : trapezoid T A T = 2 * A * (T - A) := by
  unfold trapezoid
  split_ifs
  · omega
  · obtain rfl : A = 0 := by omega
    simp
  · simp

theorem profileS_mono (hD : 0 ≤ D) (hA : 0 ≤ A) (hT : 2 * A < T) (h0 : 0 ≤ t) (htu : t ≤ u) (hu : u < T) :
    profileS D T A t ≤ profileS D T A u := by
  rcases hA.eq_or_lt with rfl | ramp
  · rw [profileS_noRamp h0 (by omega), profileS_noRamp (by omega) hu]
    exact fdiv_mono (by omega) (mul_le_mul_of_nonneg_left htu hD)
  · rw [profileS_eq_trapezoid ramp, profileS_eq_trapezoid ramp]
    have span : 0 < 2 * A * (T - A) := mul_pos (by omega) (by omega)
    exact fdiv_mono span (mul_le_mul_of_nonneg_left (trapezoid_mono hA hT h0 htu hu.le) hD)

/-- The distance never passes D (Property (c)). -/
theorem profileS_le (hD : 0 ≤ D) (hA : 0 ≤ A) (hT : 2 * A < T) (h0 : 0 ≤ t) (ht : t < T) : profileS D T A t ≤ D := by
  rcases hA.eq_or_lt with rfl | ramp
  · rw [profileS_noRamp h0 ht]
    exact Int.ediv_le_of_le_mul (by omega) (mul_le_mul_of_nonneg_left ht.le hD)
  · rw [profileS_eq_trapezoid ramp]
    have covered : trapezoid T A t ≤ 2 * A * (T - A) :=
      (trapezoid_mono hA hT h0 ht.le le_rfl).trans_eq (trapezoid_end hA hT)
    exact Int.ediv_le_of_le_mul (mul_pos (by omega) (by omega)) (mul_le_mul_of_nonneg_left covered hD)

end Distance

/-- Settles O37: the distance starts at 0 and never decreases, so it is never negative, and it never passes D. -/
theorem profileIsMonotoneAndBounded : Obligations.ProfileIsMonotoneAndBounded := by
  unfold Obligations.ProfileIsMonotoneAndBounded
  intro D T A hD hA hT
  have start := profileS_zero D T hA (by omega)
  exact ⟨start, fun t h0 ht => ⟨start ▸ profileS_mono hD hA hT le_rfl h0 ht, profileS_le hD hA hT h0 ht⟩,
    fun t u h0 htu hu => profileS_mono hD hA hT h0 htu hu⟩

end Sys2Proof.Machine
end

section
/-! The anti-windup guarantees (44_controllers.md): within the bounds of R241 the recomputed integral fits its register on
the side that the guarantee needs. -/

namespace Sys2Proof.Machine

theorem sat32_le {v : Int} (h : -2 ^ 31 ≤ v) : sat32 v ≤ v := by
  unfold sat32
  omega

theorem le_sat32 {v : Int} (h : v ≤ 2 ^ 31 - 1) : v ≤ sat32 v := by
  unfold sat32
  omega

/-- The proportional term within the bounds of R241. -/
theorem proportional_range (kp : Half) {e : Int} (he : -32767 ≤ e ∧ e ≤ 32767) :
    -(65535 * 32767) ≤ (kp.toNat : Int) * e ∧ (kp.toNat : Int) * e ≤ 65535 * 32767 := by
  have gain := kp.isLt
  have range : |(kp.toNat : Int) * e| ≤ 65535 * 32767 := by
    rw [abs_mul]
    exact mul_le_mul (by rw [Nat.abs_cast]; omega) (abs_le.mpr he) (abs_nonneg e) (by norm_num)
  exact abs_le.mp range

/-- The integral recomputed at the upper limit: rounded down, and saturated upwards at the most where that is less. -/
theorem mul_sat32_fdiv_le {x ki : Int} (hki : 0 < ki) (hx : -2 ^ 31 ≤ x) : ki * sat32 (fdiv x ki) ≤ x := by
  have register : -2 ^ 31 ≤ fdiv x ki := (le_fdiv_iff hki).mpr (by nlinarith)
  calc ki * sat32 (fdiv x ki) ≤ ki * fdiv x ki := mul_le_mul_of_nonneg_left (sat32_le register) hki.le
    _ = fdiv x ki * ki := mul_comm _ _
    _ ≤ x := fdiv_mul_le x hki

theorem le_mul_sat32_cdiv {x ki : Int} (hki : 0 < ki) (hx : x ≤ 2 ^ 31 - 1) : x ≤ ki * sat32 (cdiv x ki) := by
  have register : cdiv x ki ≤ 2 ^ 31 - 1 := (cdiv_le_iff hki).mpr (by nlinarith)
  calc x ≤ cdiv x ki * ki := le_cdiv_mul x hki
    _ = ki * cdiv x ki := mul_comm _ _
    _ ≤ ki * sat32 (cdiv x ki) := mul_le_mul_of_nonneg_left (le_sat32 register) hki.le

/-- Settles O39: each saturation leaves an integral no further out than the recomputed one. -/
theorem saturationStopsWindup : Obligations.SaturationStopsWindup := by
  unfold Obligations.SaturationStopsWindup
  intro nD l g e lo hi shift hki he he' hlo hlo' hhi hhi' hshift kp ki kd i d u r
  have gain : 0 < ki := Int.natCast_pos.mpr hki
  have term : -(65535 * 32767) ≤ kp * e ∧ kp * e ≤ 65535 * 32767 := proportional_range g.kp ⟨he, he'⟩
  have scale : (0 : Int) < 2 ^ shift := by positivity
  have hout : pidUnsaturated l g e shift = u := by
    rw [pidUnsaturated, pidDerivative_eq]
    rfl
  have hsat : (r.2, r.1.integ.toInt) = pidSaturate g e i u lo hi shift := by
    rw [← hout]
    exact pidStep_saturates nD l g e lo hi shift
  refine ⟨fun above => ?high, fun below => ?low⟩
  case high =>
    rw [pidSaturate_above above, if_pos hki] at hsat
    obtain ⟨-, integ⟩ := Prod.mk.inj hsat
    have limit : 0 ≤ hi * 2 ^ shift := mul_nonneg hhi scale.le
    have recomputed : ki * sat32 (fdiv (hi * 2 ^ shift - kp * e) ki) ≤ hi * 2 ^ shift - kp * e :=
      mul_sat32_fdiv_le gain (by omega)
    have inside := mul_le_mul_of_nonneg_left (min_le_right i (sat32 (fdiv (hi * 2 ^ shift - kp * e) ki))) gain.le
    rw [integ]
    linarith
  case low =>
    rw [pidSaturate_below (by omega) below, if_pos hki] at hsat
    obtain ⟨-, integ⟩ := Prod.mk.inj hsat
    have limit : lo * 2 ^ shift ≤ 0 := mul_nonpos_of_nonpos_of_nonneg hlo' scale.le
    have recomputed : lo * 2 ^ shift - kp * e ≤ ki * sat32 (cdiv (lo * 2 ^ shift - kp * e) ki) :=
      le_mul_sat32_cdiv gain (by omega)
    have inside := mul_le_mul_of_nonneg_left (le_max_right i (sat32 (cdiv (lo * 2 ^ shift - kp * e) ki))) gain.le
    rw [integ]
    linarith

end Sys2Proof.Machine
end

section
/-! The tracker's delta (45_tracker.md R260). -/

namespace Sys2Proof.Machine

/-- The reduced position keeps the residue (R9, R11). -/
theorem dvd_position_sub {p : Params} (h : p.Valid) (x : Int) : (p.ppr : Int) ∣ ((position p x).toNat : Int) - x := by
  have pos := h.ppr
  refine ⟨-(x / p.ppr), ?_⟩
  rw [toNat_position (by omega) pos.2, Int.emod_def]
  ring

/-- Settles O42: smod is the minimal signed residue of the change, and reducing the position keeps its residue. -/
theorem trackerMovesByMinimalDelta : Obligations.TrackerMovesByMinimalDelta := by
  unfold Obligations.TrackerMovesByMinimalDelta
  intro p raw t h t'
  have pos : 0 < p.ppr ∧ p.ppr ≤ 32768 := by
    have := h.ppr
    omega
  have abs : (t'.abs.toNat : Int) =
      ((t.abs.toNat : Int) + smod ((raw.toNat : Int) - t.prevRaw.toNat) p.ppr) % p.ppr := toNat_position pos.1 pos.2 _
  obtain ⟨low, high⟩ := smod_range ((raw.toNat : Int) - t.prevRaw.toNat) (m := (p.ppr : Int)) (by omega)
  have residue := smod_dvd ((raw.toNat : Int) - t.prevRaw.toNat) (p.ppr : Int)
  refine ⟨rfl, position_lt pos.1 pos.2 _, ⟨_, low, high, residue, abs⟩, ?moved⟩
  case moved =>
    have reduced : (p.ppr : Int) ∣
        (t'.abs.toNat : Int) - ((t.abs.toNat : Int) + smod ((raw.toNat : Int) - t.prevRaw.toNat) p.ppr) :=
      dvd_position_sub h _
    convert Int.dvd_sub reduced residue using 1
    ring

end Sys2Proof.Machine
end
